-- ==== Sys2Proof/Word.lean ====
section
/-! DEFINITION. The word types of the block (spec 00 R6, R7): bytes and 32-bit register words. -/

namespace Sys2Proof

/-- One byte of IN, OUT or the history. -/
abbrev Byte := BitVec 8

/-- One 32-bit register word (10 R22). -/
abbrev Word := BitVec 32

end Sys2Proof
end

