-- ==== Sys2Proof/Config.lean ====
section
/-! DEFINITION. What an implementation fixes (00 R5) and the values the spec leaves free (93 U1-U4). -/

namespace Sys2Proof

/-- The open parameter RAR_READBYTES_ALIGN (00 R5, 92 D34): what `ReadBytes` does in MSB order with a
partial byte pending. 91 N17 names the two possibilities. -/
inductive RarAlign where
  /-- the partial byte is skipped -/
  | skip
  /-- the bytes are taken bit-shifted, from the cursor on -/
  | shifted
deriving DecidableEq, Repr

/-- The implementation parameters of 00 R5. `histRetain = none` is HIST_RETAIN = ∞. -/
structure Config where
  inCap : Nat
  outCap : Nat
  histRetain : Option Nat
  rarAlign : RarAlign
deriving DecidableEq, Repr

/-- The bounds 00 R5 puts on the parameters. -/
def Config.wf (c : Config) : Bool :=
  decide (1 ≤ c.inCap) && decide (c.inCap < 2 ^ 29) && decide (c.outCap ≤ 2 ^ 32 - 1) &&
    (match c.histRetain with
     | none => true
     | some r => decide (32768 ≤ r))

/-- The largest capacities 00 R5 allows, with the whole history kept. DESIGN CHOICE (log 2). -/
def Config.widest : Config :=
  { inCap := 2 ^ 29 - 1, outCap := 2 ^ 32 - 1, histRetain := none, rarAlign := .skip }

/-- The content of an IN byte that the host never wrote since hardware reset number `epoch`, by address
(93 U2, U4: any value). Free (log 3). -/
opaque Config.unwrittenIn : Nat → Nat → Byte

/-- The content of an OUT byte that the engine never wrote since hardware reset number `epoch`, by address
(93 U1: any value). Free (log 4). -/
opaque Config.unwrittenOut : Nat → Nat → Byte

/-- What the n-th unspecified host read of OUT returns (93 U3: any value). Free (log 5). -/
opaque Config.freeOutRead : Nat → Byte

/-- Size of the literal/length alphabet, LIT_SYMS (00 R5). -/
def Config.litSyms : Nat := 288
/-- Size of the distance alphabet, DIST_SYMS (00 R5). -/
def Config.distSyms : Nat := 32
/-- Size of the code-length alphabet, CL_SYMS (00 R5). -/
def Config.clSyms : Nat := 19
/-- Longest literal/length or distance code, MAXBITS_LITDIST (00 R5). -/
def Config.maxBitsLitDist : Nat := 15
/-- Longest code-length code, MAXBITS_CL (00 R5). -/
def Config.maxBitsCl : Nat := 7
/-- Largest width of one PeekBits or ReadBits, MAX_READ_BITS (00 R5). -/
def Config.maxReadBits : Nat := 16

end Sys2Proof
end

