-- ==== Sys2Proof/Machine/Types.lean ====
section
/-! DEFINITION. The named sets of the spec: bit orders, engine states, decoder sub-states, error codes, events. -/

namespace Sys2Proof.Machine

/-- The cursor's bit order, ORDER (10 R42). -/
inductive Order where
  | lsb
  | msb
deriving DecidableEq, Repr

/-- The engine state, STATE (10 R27). -/
inductive EState where
  | closed
  | idle
  | run
  | waiting
  | done
  | error
deriving DecidableEq, Repr

/-- The decoder sub-state, DSTATE (10 R28). -/
inductive DState where
  | none
  | raw
  | blkHdr
  | storedHdr
  | storedData
  | dynCounts
  | dynCllen
  | dynLens
  | huffData
deriving DecidableEq, Repr

/-- The errors the block raises (60 R340). The codes 0x01 and 0x05 are never raised (93 U19) and
BUFFER_UNDERRUN (0x03) has a rule of its own (60 R345), so they are not here. -/
inductive ErrCode where
  | corruptHuffmanTable
  | unsupportedCompressionMethod
  | invalidBlockType
  | storedLengthMismatch
  | invalidCodeLengths
  | invalidLitlenSymbol
  | invalidDistanceSymbol
  | distanceTooFar
  | outputOverrun
  | lengthMismatch
  | truncatedInput
  | historyBroken
  | illegalCommand
deriving DecidableEq, Repr

/-- Reads that the spec says no rule makes, and that a model refuses (log 13). -/
inductive Unreachable where
  /-- a HuffDecode of a table with built = 0 (41 R179) -/
  | tableNotBuilt
  /-- a cursor read of more than 16 bits (40 R149) -/
  | readTooWide
  /-- a code-length symbol of 19 or more (41 R182) -/
  | clSymbol
  /-- an engine step with DSTATE = NONE (10 R28) -/
  | noElement
deriving DecidableEq, Repr

/-- How a step can be abandoned: `raise E(at, aux)` (60 R341), `raise BUFFER_UNDERRUN(req, at)` (60 R345), or a
read the spec says never happens. -/
inductive Raise where
  | error (code : ErrCode) (at_ aux : Nat)
  | underrun (req at_ : Nat)
  | outside (u : Unreachable)
deriving DecidableEq, Repr

/-- A record of EVLOG (10 R39). -/
inductive Event where
  | waiting (pos req : Word)
  | extract (index size : Word)
  | error (code : Byte) (pos aux : Word)
deriving DecidableEq, Repr

/-- Why a host access is refused (70 R390, R392). -/
inductive Forbidden where
  /-- a register access that is not a whole aligned 32-bit word (70 R392) -/
  | partialRegister
  /-- a register access at a byte offset of 256 or more (70 R392) -/
  | registerOffset
  /-- a host write to OUT (70 R392) -/
  | outWrite
  /-- a host IN access at an address of IN_CAP or more (70 R392) -/
  | inAddress
  /-- a host OUT access at an address of OUT_CAP or more (70 R392) -/
  | outAddress
  /-- a host IN write below IN_RECV, at or above CSIZE, or outside RUN, WAITING and DONE (70 R390) -/
  | inImmutable
deriving DecidableEq, Repr

end Sys2Proof.Machine
end

