-- ==== Sys2Proof/Machine/Cursor.lean ====
section
/-! DEFINITION. The BitCursor primitives (40_bitcursor.md), over the delivered input and a bit position. A primitive
that moves the cursor answers its value and the new position; the old position is kept by whoever called it. -/

namespace Sys2Proof.Machine

/-- What the cursor reads: the IN bytes, how many of them are delivered (IN_RECV, 40 R140), the bit order (10 R42) and
the open parameter of 00 R5. -/
structure Stream where
  byteAt : Nat → Byte
  recv : Nat
  order : Order
  rarAlign : RarAlign

/-- AVAIL, the number of readable bits (40 R140). -/
def Stream.avail (st : Stream) : Nat := 8 * st.recv

/-- The bit at position `p` (40 R141). -/
def bitAt (st : Stream) (p : Nat) : Bool :=
  match st.order with
  | .lsb => (st.byteAt (p / 8)).getLsbD (p % 8)
  | .msb => (st.byteAt (p / 8)).getLsbD (7 - p % 8)

/-- The `n` bits from `p` on with the first bit read at bit 0 (40 R142, LSB). -/
def lsbValue (st : Stream) : Nat → Nat → Nat
  | 0, _ => 0
  | n + 1, p => (bitAt st p).toNat + 2 * lsbValue st n (p + 1)

/-- The `n` bits from `p` on with the first bit read at bit n - 1 (40 R142, MSB). -/
def msbValue (st : Stream) : Nat → Nat → Nat
  | 0, _ => 0
  | n + 1, p => (bitAt st p).toNat * 2 ^ n + msbValue st n (p + 1)

/-- The value of an `n`-bit read at position `p` (40 R142). -/
def streamValue (st : Stream) (n p : Nat) : Nat :=
  match st.order with
  | .lsb => lsbValue st n p
  | .msb => msbValue st n p

/-- PeekBits (40 R144), with the refusal of 40 R149. -/
def peekBits (st : Stream) (n p : Nat) : Except Raise Nat :=
  if Config.maxReadBits < n then .error (.outside .readTooWide)
  else if st.avail < p + n then .error (.underrun n p)
  else .ok (streamValue st n p)

/-- ReadBits (40 R145). -/
def readBits (st : Stream) (n p : Nat) : Except Raise (Nat × Nat) :=
  match peekBits st n p with
  | .ok v => .ok (v, p + n)
  | .error r => .error r

/-- ReadBit (40 R148). -/
def readBit (st : Stream) (p : Nat) : Except Raise (Nat × Nat) := readBits st 1 p

/-- AlignByte in the ZIP/DEFLATE policy (40 R146). -/
def alignByte (p : Nat) : Nat := if p % 8 = 0 then p else 8 * (p / 8 + 1)

/-- `In[a] ++ ... ++ In[a + n - 1]`. -/
def byteSlice (st : Stream) (a n : Nat) : List Byte := (List.range n).map (fun i => st.byteAt (a + i))

/-- ReadBytes in the ZIP/DEFLATE policy: the partial byte is discarded first (40 R147). -/
def readBytesAligned (st : Stream) (n p : Nat) : Except Raise (List Byte × Nat) :=
  let q := alignByte p
  if st.recv < q / 8 + n then .error (.underrun (8 * n) q)
  else .ok (byteSlice st (q / 8) n, 8 * (q / 8 + n))

/-- ReadBytes on a cursor inside a byte, taking the bytes bit-shifted: one reading of the open parameter
RAR_READBYTES_ALIGN (92 D34, log 12). -/
def readBytesShifted (st : Stream) (n p : Nat) : Except Raise (List Byte × Nat) :=
  if st.avail < p + 8 * n then .error (.underrun (8 * n) p)
  else .ok ((List.range n).map (fun i => BitVec.ofNat 8 (streamValue st 8 (p + 8 * i))), p + 8 * n)

/-- ReadBytes (40 R147). The RAR policy differs only inside a byte in MSB order, where the open parameter decides
(40 R146, log 12). -/
def readBytes (st : Stream) (n p : Nat) : Except Raise (List Byte × Nat) :=
  match st.order, st.rarAlign with
  | .msb, .shifted => if p % 8 = 0 then readBytesAligned st n p else readBytesShifted st n p
  | _, _ => readBytesAligned st n p

/-- `ReadBytes(1)`, as the byte it reads (43 R245, R260). -/
def readOneByte (st : Stream) (p : Nat) : Except Raise (Byte × Nat) :=
  match readBytes st 1 p with
  | .ok (bs, q) => .ok (bs.headD 0, q)
  | .error r => .error r

end Sys2Proof.Machine
end

