-- ==== Sys2Proof/Machine/Huffman.lean ====
section
/-! DEFINITION. Canonical Huffman tables: build, decode, the fixed tables (41_huffman.md, 10 R32-R33). -/

namespace Sys2Proof.Machine

/-- A table register file (10 R32). `len` and `sym` have N entries, `count` has entries 0..15, `firstCode` and
`firstIndex` have entries 1..15 (position l - 1 holds entry l). -/
structure HuffTable where
  built : Bool
  len : List (BitVec 4)
  count : List (BitVec 9)
  firstCode : List (BitVec 16)
  firstIndex : List (BitVec 9)
  sym : List (BitVec 9)
  maxLen : BitVec 4
deriving DecidableEq, Repr

/-- A table of `n` symbols as reset leaves it: built = 0 (10 R32); the other fields are unspecified and hold 0 here,
DESIGN CHOICE (log 7). -/
def HuffTable.unbuilt (n : Nat) : HuffTable :=
  { built := false
    len := List.replicate n 0
    count := List.replicate 16 0
    firstCode := List.replicate 15 0
    firstIndex := List.replicate 15 0
    sym := List.replicate n 0
    maxLen := 0 }

/-- `T.built <- 0`, leaving the other fields as they are (43 R240, log 8). -/
def HuffTable.clear (t : HuffTable) : HuffTable := { t with built := false }

/-- `T.len[s]` as a number. -/
def HuffTable.lenAt (t : HuffTable) (s : Nat) : Nat := (t.len.getD s 0).toNat

/-- `T.count[l]` as a number. -/
def HuffTable.countAt (t : HuffTable) (l : Nat) : Nat := (t.count.getD l 0).toNat

/-- `T.firstCode[l]` as a number, `1 ≤ l`. -/
def HuffTable.firstCodeAt (t : HuffTable) (l : Nat) : Nat := (t.firstCode.getD (l - 1) 0).toNat

/-- `T.firstIndex[l]` as a number, `1 ≤ l`. -/
def HuffTable.firstIndexAt (t : HuffTable) (l : Nat) : Nat := (t.firstIndex.getD (l - 1) 0).toNat

/-- `T.sym[i]` as a number. -/
def HuffTable.symAt (t : HuffTable) (i : Nat) : Nat := (t.sym.getD i 0).toNat

/-- `count[l]`, with `count[0]` = 0 (41 R171). -/
def lengthCount (lens : List Nat) (l : Nat) : Nat := if l = 0 then 0 else lens.count l

/-- The `left` loop of 41 R172 over lengths `l, l + 1, ...` for `k` of them: true if no length over-subscribes. -/
def leftNeverNegative (lens : List Nat) : Nat → Nat → Nat → Bool
  | 0, _, _ => true
  | k + 1, l, left =>
    if 2 * left < lengthCount lens l then false
    else leftNeverNegative lens k (l + 1) (2 * left - lengthCount lens l)

/-- Whether a length set over-subscribes its code space (41 R173). -/
def overSubscribed (lens : List Nat) (maxLimit : Nat) : Bool := !leftNeverNegative lens maxLimit 1 1

/-- `firstCode[l] = (firstCode[l-1] + count[l-1]) << 1`, from `code = 0` (41 R174). -/
def firstCodeOf (lens : List Nat) : Nat → Nat
  | 0 => 0
  | l + 1 => 2 * (firstCodeOf lens l + lengthCount lens l)

/-- `firstIndex[l]`: how many symbols have a shorter code (41 R172). -/
def firstIndexOf (lens : List Nat) : Nat → Nat
  | 0 => 0
  | l + 1 => firstIndexOf lens l + lengthCount lens l

/-- The symbols of length `l` in increasing order (41 R175). -/
def symbolsOfLength (lens : List Nat) (l : Nat) : List Nat :=
  (List.range lens.length).filter (fun s => lens.getD s 0 == l)

/-- `sym`: the symbols by length, then by value (41 R172, R175). -/
def symbolOrder (lens : List Nat) (maxLimit : Nat) : List Nat :=
  (List.range maxLimit).flatMap (fun i => symbolsOfLength lens (i + 1))

/-- The largest length present, 0 if none (41 R172). -/
def longestLength (lens : List Nat) : Nat := lens.foldl max 0

/-- An entry of a 1..15 register array: computed up to `maxLimit`, which is as far as 41 R172 writes, and 0 above it,
DESIGN CHOICE, never read (log 9). -/
def upTo (maxLimit l v : Nat) : Nat := if l ≤ maxLimit then v else 0

/-- The table 41 R172 writes for a length set that does not over-subscribe. `sym` entries from K on are 0, DESIGN
CHOICE, never read (log 9). -/
def tableOf (lens : List Nat) (maxLimit : Nat) : HuffTable :=
  { built := true
    len := lens.map (BitVec.ofNat 4)
    count := (List.range 16).map (fun l => BitVec.ofNat 9 (lengthCount lens l))
    firstCode := (List.range 15).map (fun i => BitVec.ofNat 16 (upTo maxLimit (i + 1) (firstCodeOf lens (i + 1))))
    firstIndex := (List.range 15).map (fun i => BitVec.ofNat 9 (upTo maxLimit (i + 1) (firstIndexOf lens (i + 1))))
    sym := ((symbolOrder lens maxLimit).map (BitVec.ofNat 9) ++ List.replicate lens.length 0).take lens.length
    maxLen := BitVec.ofNat 4 (longestLength lens) }

/-- HuffBuild (41 R172): `tid` names the table, `at_` is the position a raise reports (60 R341). A raise writes no table
(log 29). -/
def huffBuild (tid : Nat) (lens : List Nat) (maxLimit at_ : Nat) : Except Raise HuffTable :=
  if overSubscribed lens maxLimit then .error (.error .invalidCodeLengths at_ (tid * 256 + 1))
  else .ok (tableOf lens maxLimit)

/-- The loop of HuffDecode (41 R176): `k` lengths are left, the next is `l`, `code` holds the bits read so far. -/
def huffLoop (t : HuffTable) (st : Stream) (start : Nat) : Nat → Nat → Nat → Nat → Except Raise (Nat × Nat)
  | 0, _, code, _ => .error (.error .corruptHuffmanTable start code)
  | k + 1, l, code, p =>
    match readBit st p with
    | .error r => .error r
    | .ok (b, q) =>
      let c := 2 * code + b
      if t.firstCodeAt l ≤ c ∧ c < t.firstCodeAt l + t.countAt l then
        .ok (t.symAt (t.firstIndexAt l + c - t.firstCodeAt l), q)
      else huffLoop t st start k (l + 1) c q

/-- HuffDecode (41 R176), refused on a table that is not built (41 R179). -/
def huffDecode (t : HuffTable) (st : Stream) (p : Nat) : Except Raise (Nat × Nat) :=
  if t.built then huffLoop t st p t.maxLen.toNat 1 0 p else .error (.outside .tableNotBuilt)

/-- The fixed literal/length code lengths (10 R33). -/
def fixedLitLengths : List Nat :=
  List.replicate 144 8 ++ List.replicate 112 9 ++ List.replicate 24 7 ++ List.replicate 8 8

/-- The fixed distance code lengths (10 R33). -/
def fixedDistLengths : List Nat := List.replicate 32 5

/-- T_FIXLIT (10 R33). -/
def tFixLit : HuffTable := tableOf fixedLitLengths Config.maxBitsLitDist

/-- T_FIXDIST (10 R33). -/
def tFixDist : HuffTable := tableOf fixedDistLengths Config.maxBitsLitDist

/-- The code of symbol `s`, as a number `T.len[s]` bits wide: the first code of its length, plus the number of smaller
symbols of that length (41 R175). -/
def codeOf (t : HuffTable) (s : Nat) : Nat :=
  t.firstCodeAt (t.lenAt s) + ((List.range s).filter (fun r => t.lenAt r == t.lenAt s)).length

end Sys2Proof.Machine
end

