-- ==== Sys2Proof/Machine/Memory.lean ====
section
/-! DEFINITION. A byte space (IN or OUT, 20 R60) as a list of (address, byte) pairs in one canonical form: addresses
strictly rising. An unlisted address holds no written byte, so no entry can equal what an unlisted address reads as. -/

namespace Sys2Proof.Machine

/-- A byte space: the bytes written so far, by rising address. -/
abbrev Memory := List Host.Cell

/-- What an unlisted address reads as at this level: nothing has been written there. What an access then returns is a
free value (93 U1, U2; log 3, log 4). -/
def Memory.unlisted : Option Byte := none

/-- The byte last written at address `a`, if any (20 R61). -/
def Memory.read? : Memory → Nat → Option Byte
  | [], _ => Memory.unlisted
  | (b, v) :: rest, a => if a = b then some v else Memory.read? rest a

/-- `MemWrite(a, 1, v)` (20 R61, R62). -/
def Memory.write : Memory → Nat → Byte → Memory
  | [], a, v => [(a, v)]
  | (b, w) :: rest, a, v =>
    if a < b then (a, v) :: (b, w) :: rest
    else if a = b then (a, v) :: rest
    else (b, w) :: Memory.write rest a v

/-- The canonical form. -/
def Memory.wf : Memory → Bool
  | [] => true
  | [_] => true
  | (a, _) :: (b, v) :: rest => decide (a < b) && Memory.wf ((b, v) :: rest)

end Sys2Proof.Machine
end

