-- ==== Sys2Proof/Machine/State.lean ====
section
/-! DEFINITION. The machine's state (10_state.md), the reasons a step can stop, and the state after reset (10 R41). -/

namespace Sys2Proof.Machine

/-- The reasons the machine stops with a fault: none. Every error the spec describes is a next state, in ERROR or
WAITING (60 R341, R345; log 25). -/
inductive Fault
deriving DecidableEq, Repr

/-- The reasons a step has no meaning. Each but the first is a read the spec says no rule makes (log 13); no step from
a state that meets the machine's invariant answers one, so they are safe. -/
inductive Refusal where
  /-- an instruction that has no meaning yet; no arm of `exec` raises it; safe -/
  | notModelled (mnemonic : String)
  /-- a HuffDecode of a table with built = 0 (41 R179, 93 U7); raised by the engine's element fetch; safe -/
  | tableNotBuilt
  /-- a cursor read of more than 16 bits (40 R149, 93 U8); raised by the engine's element fetch; safe -/
  | readTooWide
  /-- a code-length symbol of 19 or more (41 R182); raised by the engine's element fetch; safe -/
  | clSymbolOutsideAlphabet
  /-- an engine step in RUN with DSTATE = NONE (10 R28); raised by the engine's element fetch; safe -/
  | noElementSelected
deriving DecidableEq, Repr

/-- One turn of the schedule: the engine's, a hardware reset (70 R380), or one host access (20 R60, 44 R309-R311).
Register accesses are given by byte offset and size in bytes (10 R22, 70 R392). -/
inductive Turn where
  | engine
  | hardReset
  | regWrite (offset size : Nat) (w : Word)
  | regRead (offset size : Nat)
  | inWrite (a : Nat) (b : Byte)
  | outRead (a : Nat)
  | outWrite (a : Nat) (b : Byte)
deriving DecidableEq, Repr

/-- The state of the block. -/
structure State where
  /-- the implementation parameters (00 R5), constant; log 2 -/
  cfg : Config
  /-- the turns to come, the model's own field; log 1 -/
  sched : List Turn
  /-- what the last host read returned, the model's own field; log 16 -/
  hostData : Word
  /-- the refusal mark, with the first reason (70, before R390; log 6) -/
  refusalMark : Option Forbidden
  /-- how many unspecified OUT reads were answered, the model's own field; log 5 -/
  freeReads : Nat
  /-- how many hardware resets there were, the model's own field; log 17 -/
  epoch : Nat
  /-- ARG0 (10 R38) -/
  arg0 : Word
  /-- ARG1 (10 R38) -/
  arg1 : Word
  /-- ARG2 (10 R38) -/
  arg2 : Word
  /-- STATE (10 R27) -/
  state : EState
  /-- DSTATE (10 R28) -/
  dstate : DState
  /-- TAINT (10 R37, 60 R343) -/
  taint : Bool
  /-- BFINAL (10 R29) -/
  bfinal : Bool
  /-- BTYPE (10 R29) -/
  btype : BitVec 2
  /-- ERRCODE (10 R37) -/
  errcode : BitVec 8
  /-- ERRPOS (10 R37) -/
  errpos : Word
  /-- ERRAUX (10 R37) -/
  erraux : Word
  /-- METHOD (10 R26) -/
  method : BitVec 8
  /-- SOLID (10 R26) -/
  solid : Bool
  /-- CSIZE (10 R26) -/
  csize : Word
  /-- USIZE (10 R26) -/
  usize : Word
  /-- IN_RECV (10 R26) -/
  inRecv : Word
  /-- pos, the bit cursor (10 R24): byteIndex in bits 31:3, bitIndex in bits 2:0 -/
  pos : Word
  /-- the reading position inside the element being decoded, the model's own field; log 10 -/
  npos : Word
  /-- ORDER (10 R42) -/
  order : Order
  /-- STORED_REM (10 R30) -/
  storedRem : BitVec 16
  /-- HLIT (10 R31) -/
  hlit : BitVec 9
  /-- HDIST (10 R31) -/
  hdist : BitVec 6
  /-- HCLEN (10 R31) -/
  hclen : BitVec 5
  /-- LENS[0..315] (10 R31) -/
  lens : List (BitVec 4)
  /-- LIDX (10 R31) -/
  lidx : BitVec 9
  /-- the match length already read (43 R255) inside a match, 0 outside, the model's own field; log 11 -/
  mlen : BitVec 9
  /-- T_CL (10 R32) -/
  tCl : HuffTable
  /-- T_LIT (10 R32) -/
  tLit : HuffTable
  /-- T_DIST (10 R32) -/
  tDist : HuffTable
  /-- the IN space (20 R61) -/
  inp : Memory
  /-- the OUT space (20 R62, 10 R34) -/
  out : Memory
  /-- OUT_PTR (10 R34) -/
  outPtr : Word
  /-- HIST, oldest first (10 R35) -/
  hist : List (List Byte)
  /-- PROG_FILE (10 R36) -/
  progFile : Word
  /-- PROG_TOTAL (10 R36) -/
  progTotal : BitVec 64
  /-- FILES_DONE (10 R36) -/
  filesDone : Word
  /-- EVLOG (10 R39) -/
  evlog : List Event
deriving DecidableEq, Repr

/-- The machine right after reset (10 R41, 70 R380). The parameters are DESIGN CHOICE (log 2), LENS and the table
fields other than built are unspecified and 0 here (log 7), IN and OUT list nothing (log 3, log 4), and the model's own
fields hold the values of log 1, log 5, log 6, log 10, log 11, log 16 and log 17. -/
def State.reset : State :=
  { cfg := Config.widest
    sched := []
    hostData := 0
    refusalMark := none
    freeReads := 0
    epoch := 0
    arg0 := 0
    arg1 := 0
    arg2 := 0
    state := .closed
    dstate := .none
    taint := false
    bfinal := false
    btype := 0
    errcode := 0
    errpos := 0
    erraux := 0
    method := 0
    solid := false
    csize := 0
    usize := 0
    inRecv := 0
    pos := 0
    npos := 0
    order := .lsb
    storedRem := 0
    hlit := 0
    hdist := 0
    hclen := 0
    lens := List.replicate 316 0
    lidx := 0
    mlen := 0
    tCl := HuffTable.unbuilt 19
    tLit := HuffTable.unbuilt 288
    tDist := HuffTable.unbuilt 32
    inp := []
    out := []
    outPtr := 0
    hist := []
    progFile := 0
    progTotal := 0
    filesDone := 0
    evlog := [] }

end Sys2Proof.Machine
end

