-- ==== Sys2Proof/Machine/Flags.lean ====
section
/-! DEFINITION. The codes of STATE, DSTATE and ERRCODE, the event line, the STATUS word (10 R23, R27, R28; 60 R340,
R350), and the derived history counts (10 R35). -/

namespace Sys2Proof.Machine

/-- The code of STATE (10 R27). -/
def EState.code : EState → BitVec 3
  | .closed => 0
  | .idle => 1
  | .run => 2
  | .waiting => 3
  | .done => 4
  | .error => 5

/-- The code of DSTATE (10 R28). -/
def DState.code : DState → BitVec 4
  | .none => 0
  | .raw => 1
  | .blkHdr => 2
  | .storedHdr => 3
  | .storedData => 4
  | .dynCounts => 5
  | .dynCllen => 6
  | .dynLens => 7
  | .huffData => 8

/-- The error codes (60 R340). -/
def ErrCode.code : ErrCode → BitVec 8
  | .corruptHuffmanTable => 0x02
  | .unsupportedCompressionMethod => 0x04
  | .invalidBlockType => 0x10
  | .storedLengthMismatch => 0x11
  | .invalidCodeLengths => 0x12
  | .invalidLitlenSymbol => 0x15
  | .invalidDistanceSymbol => 0x16
  | .distanceTooFar => 0x17
  | .outputOverrun => 0x18
  | .lengthMismatch => 0x19
  | .truncatedInput => 0x1A
  | .historyBroken => 0x1B
  | .illegalCommand => 0x1C

/-- The code of BUFFER_UNDERRUN (60 R340). -/
def underrunCode : BitVec 8 := 0x03

/-- The event line STATUS.EVT (60 R350). -/
def evt (s : State) : Bool :=
  match s.state with
  | .waiting | .done | .error => true
  | .closed | .idle | .run => false

/-- The STATUS word (10 R23). -/
def statusWord (s : State) : Word :=
  0#20 ++ s.dstate.code ++ BitVec.ofBool (evt s) ++ s.btype ++ BitVec.ofBool s.bfinal ++ BitVec.ofBool s.taint ++
    s.state.code

/-- The METHOD register: METHOD in bits 7:0, SOLID in bit 8 (10 R22). -/
def methodWord (s : State) : Word := 0#23 ++ BitVec.ofBool s.solid ++ s.method

/-- The total length of a history. -/
def historyLength (h : List (List Byte)) : Nat := (h.map List.length).sum

/-- HIST_BYTES, a natural (10 R35). -/
def histBytes (s : State) : Nat := historyLength s.hist

/-- HIST_COUNT (10 R35). -/
def histCount (s : State) : Nat := s.hist.length

/-- byteIndex, 29 bits (10 R24). -/
def State.byteIndex (s : State) : BitVec 29 := s.pos.extractLsb' 3 29

/-- bitIndex, 3 bits (10 R24). -/
def State.bitIndex (s : State) : BitVec 3 := s.pos.extractLsb' 0 3

end Sys2Proof.Machine
end

