-- ==== Sys2Proof/Machine/Operands.lean ====
section
/-! DEFINITION. The constant operand tables of the stream (30 R97, R99-R101) and the operand sums (30 R106). -/

namespace Sys2Proof.Machine

/-- Base length and extra bits of length symbols 257, 258, ... 285, in order (30 R100). -/
def lengthTable : List (Nat × Nat) :=
  [(3, 0), (4, 0), (5, 0), (6, 0), (7, 0), (8, 0), (9, 0), (10, 0), (11, 1), (13, 1),
   (15, 1), (17, 1), (19, 2), (23, 2), (27, 2), (31, 2), (35, 3), (43, 3), (51, 3), (59, 3),
   (67, 4), (83, 4), (99, 4), (115, 4), (131, 5), (163, 5), (195, 5), (227, 5), (258, 0)]

/-- Base distance and extra bits of distance symbols 0, 1, ... 29, in order (30 R101). -/
def distanceTable : List (Nat × Nat) :=
  [(1, 0), (2, 0), (3, 0), (4, 0), (5, 1), (7, 1), (9, 2), (13, 2), (17, 3), (25, 3),
   (33, 4), (49, 4), (65, 5), (97, 5), (129, 6), (193, 6), (257, 7), (385, 7), (513, 8), (769, 8),
   (1025, 9), (1537, 9), (2049, 10), (3073, 10), (4097, 11), (6145, 11), (8193, 12), (12289, 12), (16385, 13), (24577, 13)]

/-- LBASE (30 R100). -/
def lengthBase (sym : Nat) : Nat := (lengthTable.getD (sym - 257) (0, 0)).1

/-- LEXTRA (30 R100). -/
def lengthExtra (sym : Nat) : Nat := (lengthTable.getD (sym - 257) (0, 0)).2

/-- DBASE (30 R101). -/
def distanceBase (d : Nat) : Nat := (distanceTable.getD d (0, 0)).1

/-- DEXTRA (30 R101); the invalid symbols 30 and 31 have no extra bits (43 R253). -/
def distanceExtra (d : Nat) : Nat := (distanceTable.getD d (0, 0)).2

/-- CLORDER (30 R99). -/
def clOrder : List Nat := [16, 17, 18, 0, 8, 7, 9, 6, 10, 5, 11, 4, 12, 3, 13, 2, 14, 1, 15]

/-- Match length (30 R106). -/
def matchLength (sym e : Nat) : Nat := lengthBase sym + e

/-- Match distance (30 R106). -/
def matchDistance (d x : Nat) : Nat := distanceBase d + x

/-- HLIT before its check (30 R106). -/
def hlitOf (l : Nat) : Nat := l + 257

/-- HDIST before its check (30 R106). -/
def hdistOf (d : Nat) : Nat := d + 1

/-- HCLEN (30 R106). -/
def hclenOf (c : Nat) : Nat := c + 4

/-- Repeat count of code-length symbol 16 (30 R97). -/
def repeatPrevCount (r : Nat) : Nat := 3 + r

/-- Repeat count of code-length symbol 17 (30 R97). -/
def repeatZeroShortCount (r : Nat) : Nat := 3 + r

/-- Repeat count of code-length symbol 18 (30 R97). -/
def repeatZeroLongCount (r : Nat) : Nat := 11 + r

/-- The code-length-code lengths of symbols 0..18, from the fields sent in CLORDER; the lengths not sent are 0
(30 R96, 43 R248). -/
def clLengths (fields : List (BitVec 3)) : List Nat :=
  (List.range 19).map (fun s => ((fields.getD (clOrder.idxOf s) 0).toNat))

/-- Method byte of START_ENTRY, `a0[7:0]` (44 R304). -/
def startMethod (a0 : Word) : BitVec 8 := a0.extractLsb' 0 8

/-- SOLID bit of START_ENTRY, `a0[8]` (44 R304). -/
def startSolid (a0 : Word) : Bool := a0.getLsbD 8

end Sys2Proof.Machine
end

