-- ==== Sys2Proof/Machine/Ops.lean ====
section
/-! DEFINITION. The shared operations: taking an error or an underrun and coming back from it (60 R341-R345, 44 R307),
resets (44 R302, 70 R380), the window and the history (42), the code-length expansion and table builds (41, 43), the
end of a block and of an entry (43 R256-R257), and the end of an engine step (44 R312). -/

namespace Sys2Proof.Machine

/-! ## Reading IN and OUT -/

/-- `In[a]`: the byte the host last wrote, or a free value (20 R61, 93 U2; log 3). -/
def inByte (s : State) (a : Nat) : Byte := (s.inp.read? a).getD (Config.unwrittenIn s.epoch a)

/-- `Out[a]`: the byte the engine last wrote, or a free value (20 R62, 93 U1; log 4). -/
def outByte (s : State) (a : Nat) : Byte := (s.out.read? a).getD (Config.unwrittenOut s.epoch a)

/-- `Out[0 .. n - 1]`. -/
def outSlice (s : State) (n : Nat) : List Byte := (List.range n).map (outByte s)

/-- What the cursor of state `s` reads (40 R140). -/
def streamOf (s : State) : Stream :=
  { byteAt := inByte s, recv := s.inRecv.toNat, order := s.order, rarAlign := s.cfg.rarAlign }

/-! ## Errors, waiting and coming back -/

/-- `raise E(at, aux)` from the state before the step (60 R341): that state with exactly the raise's writes. -/
def raiseError (c : ErrCode) (at_ aux : Nat) (s : State) : State :=
  { s with
    npos := s.pos
    mlen := 0
    errcode := c.code
    errpos := BitVec.ofNat 32 at_
    erraux := BitVec.ofNat 32 aux
    taint := true
    state := .error
    dstate := .none
    evlog := s.evlog ++ [.error c.code (BitVec.ofNat 32 at_) (BitVec.ofNat 32 aux)] }

/-- The waiting half of `raise BUFFER_UNDERRUN(req, at)` (60 R345). -/
def enterWaiting (req at_ : Nat) (s : State) : State :=
  { s with
    npos := s.pos
    mlen := 0
    errcode := underrunCode
    errpos := BitVec.ofNat 32 at_
    erraux := BitVec.ofNat 32 req
    state := .waiting
    dstate := .none
    evlog := s.evlog ++ [.waiting (BitVec.ofNat 32 at_) (BitVec.ofNat 32 req)] }

/-- `raise BUFFER_UNDERRUN(req, at)` (60 R345). -/
def raiseUnderrun (req at_ : Nat) (s : State) : State :=
  if s.inRecv.toNat < s.csize.toNat then enterWaiting req at_ s else raiseError .truncatedInput at_ req s

/-- The refusal of a read the spec says no rule makes (log 13). -/
def Unreachable.refusal : Unreachable → Refusal
  | .tableNotBuilt => .tableNotBuilt
  | .readTooWide => .readTooWide
  | .clSymbol => .clSymbolOutsideAlphabet
  | .noElement => .noElementSelected

/-- Taking a raise: `s` is the state before the step or command (60 R341, R345, R349). -/
def takeRaise (r : Raise) (s : State) : Host.Outcome State Fault Refusal :=
  match r with
  | .error c at_ aux => .next (raiseError c at_ aux s)
  | .underrun req at_ => .next (raiseUnderrun req at_ s)
  | .outside u => .refused u.refusal

/-- EntryInit (43 R240). The LENS entries, all of them at or above the new LIDX = 0 and so unspecified (10 R31, 93 U5),
stay as they are, DESIGN CHOICE (log 30). -/
def entryInit (s : State) : State :=
  { s with
    pos := 0
    npos := 0
    mlen := 0
    order := .lsb
    outPtr := 0
    bfinal := false
    btype := 0
    storedRem := 0
    hlit := 0
    hdist := 0
    hclen := 0
    lidx := 0
    tCl := s.tCl.clear
    tLit := s.tLit.clear
    tDist := s.tDist.clear
    dstate := if s.method = 0 then .raw else .blkHdr }

/-- Resume, the return from WAITING: restart at the entry's first bit (44 R307). -/
def resume (s : State) : State :=
  { entryInit s with errcode := 0, errpos := 0, erraux := 0, state := .run }

/-- What OPEN and CLOSE share: everything of 10 R41 at its reset value but ARG0..ARG2, IN, OUT and EVLOG, then STATE
(44 R302, R303). The parameters and the model's own records stay. -/
def sessionReset (dest : EState) (s : State) : State :=
  { State.reset with
    cfg := s.cfg
    sched := s.sched
    hostData := s.hostData
    refusalMark := s.refusalMark
    freeReads := s.freeReads
    epoch := s.epoch
    arg0 := s.arg0
    arg1 := s.arg1
    arg2 := s.arg2
    inp := s.inp
    out := s.out
    evlog := s.evlog
    state := dest }

/-- A hardware reset (70 R380): every piece of state at its reset value; IN and OUT hold unspecified bytes again (a new
`epoch`). The parameters, the turns to come and the model's own records stay (log 17). -/
def hardReset (s : State) : State :=
  { State.reset with
    cfg := s.cfg
    sched := s.sched
    hostData := s.hostData
    refusalMark := s.refusalMark
    freeReads := s.freeReads
    epoch := s.epoch + 1 }

/-! ## The end of a step -/

/-- The counter update at the end of an engine step that does not raise (44 R312). -/
def counterUpdate (s : State) : State :=
  { s with
    progTotal :=
      if s.progFile.toNat < s.outPtr.toNat then
        BitVec.ofNat 64 (s.progTotal.toNat + (s.outPtr.toNat - s.progFile.toNat))
      else s.progTotal
    progFile := if s.progFile.toNat < s.outPtr.toNat then s.outPtr else s.progFile }

/-- The cursor after the element: the bits read are consumed (40 R145), and no match is open (log 10, log 11). -/
def commitCursor (s : State) : State := { s with pos := s.npos, mlen := 0 }

/-- An engine step of state `s` whose element's rule answers `body` (43 R241). -/
def runElement (s : State) (body : Except Raise State) : Host.Outcome State Fault Refusal :=
  match body with
  | .ok t => .next (counterUpdate (commitCursor t))
  | .error r => takeRaise r s

/-- A host command of state `s` whose rule answers `body` (44 R300). -/
def runCommand (s : State) (body : Except Raise State) : Host.Outcome State Fault Refusal :=
  match body with
  | .ok t => .next t
  | .error r => takeRaise r s

/-! ## The window and the history -/

/-- `Out[OUT_PTR] <- b; OUT_PTR <- OUT_PTR + 1` (42 R212). -/
def putByte (b : Byte) (s : State) : State :=
  { s with out := s.out.write s.outPtr.toNat b, outPtr := BitVec.ofNat 32 (s.outPtr.toNat + 1) }

/-- OutAppend (42 R212). -/
def outAppend (b : Byte) (s : State) : Except Raise State :=
  if s.usize.toNat ≤ s.outPtr.toNat then .error (.error .outputOverrun s.pos.toNat s.usize.toNat)
  else .ok (putByte b s)

/-- HB, the visible history (42 R211). -/
def visibleHistory (s : State) : Nat := if s.solid then histBytes s else 0

/-- VIS, the bytes a back-reference may reach (42 R211). -/
def visible (s : State) : Nat := visibleHistory s + s.outPtr.toNat

/-- Logical (42 R213). -/
def logical (s : State) (a : Nat) : Byte :=
  if a < visibleHistory s then s.hist.flatten.getD a 0 else outByte s (a - visibleHistory s)

/-- The byte-serial loop of OutCopy: `k` bytes are left (42 R214). -/
def copyLoop (dist : Nat) : Nat → State → State
  | 0, s => s
  | k + 1, s => copyLoop dist k (putByte (logical s (visibleHistory s + s.outPtr.toNat - dist)) s)

/-- OutCopy (42 R214). -/
def outCopy (len dist : Nat) (s : State) : Except Raise State :=
  if dist = 0 ∨ visible s < dist then .error (.error .distanceTooFar s.pos.toNat dist)
  else if s.usize.toNat < s.outPtr.toNat + len then .error (.error .outputOverrun s.pos.toNat len)
  else .ok (copyLoop dist len s)

/-- The loop of Retain (42 R218): the oldest members are dropped while what stays holds at least `r` bytes. -/
def retainLoop (r : Nat) : List (List Byte) → List (List Byte)
  | [] => []
  | [h] => [h]
  | h :: g :: rest => if r ≤ historyLength (g :: rest) then retainLoop r (g :: rest) else h :: g :: rest

/-- Retain (42 R218). -/
def retain (bound : Option Nat) (h : List (List Byte)) : List (List Byte) :=
  match bound with
  | none => h
  | some r => retainLoop r h

/-- Freeze (42 R217). -/
def freeze (s : State) : State :=
  { s with hist := retain s.cfg.histRetain (s.hist ++ [outSlice s s.outPtr.toNat]) }

/-! ## The end of a block and of an entry -/

/-- Finish (43 R257). The cursor stands after the element just read. -/
def finish (s : State) : Except Raise State :=
  if s.outPtr ≠ s.usize then .error (.error .lengthMismatch s.npos.toNat s.outPtr.toNat)
  else
    .ok { freeze s with
      evlog := s.evlog ++ [.extract s.filesDone s.usize]
      filesDone := BitVec.ofNat 32 (s.filesDone.toNat + 1)
      state := .done
      dstate := .none }

/-- EndOfBlock (43 R256). -/
def endOfBlock (s : State) : Except Raise State :=
  if s.bfinal then finish s else .ok { s with dstate := .blkHdr }

/-! ## Block headers and the dynamic header -/

/-- The latches of an accepted block header (43 R242). -/
def latchBlock (f : Bool) (t : BitVec 2) (next : DState) (s : State) : State :=
  { s with bfinal := f, btype := t, dstate := next }

/-- LoadFixed (43 R243). -/
def loadFixed (s : State) : State := { s with tLit := tFixLit, tDist := tFixDist }

/-- `LENS[i .. i + r - 1] <- v` (41 R182). -/
def setRun : List (BitVec 4) → Nat → Nat → BitVec 4 → List (BitVec 4)
  | [], _, _, _ => []
  | x :: xs, 0, 0, _ => x :: xs
  | _ :: xs, 0, r + 1, v => v :: setRun xs 0 r v
  | x :: xs, i + 1, r, v => x :: setRun xs i r v

/-- `LENS[i]`. -/
def lensAt (s : State) (i : Nat) : BitVec 4 := s.lens.getD i 0

/-- The literal/length code lengths of the block (43 R250). -/
def litLengths (s : State) : List Nat :=
  (List.range Config.litSyms).map (fun k => if k < s.hlit.toNat then (lensAt s k).toNat else 0)

/-- The distance code lengths of the block (43 R250). -/
def distLengths (s : State) : List Nat :=
  (List.range Config.distSyms).map (fun k => if k < s.hdist.toNat then (lensAt s (s.hlit.toNat + k)).toNat else 0)

/-- BuildDynamic (43 R250). -/
def buildDynamic (s : State) : Except Raise State :=
  if (litLengths s).getD 256 0 = 0 then .error (.error .invalidCodeLengths s.pos.toNat 0x104)
  else
    match huffBuild 1 (litLengths s) Config.maxBitsLitDist s.pos.toNat with
    | .error r => .error r
    | .ok lt =>
      match huffBuild 2 (distLengths s) Config.maxBitsLitDist s.pos.toNat with
      | .error r => .error r
      | .ok dt => .ok { s with tLit := lt, tDist := dt, dstate := .huffData }

/-- HLIT + HDIST, the TOTAL of 41 R182. -/
def totalLengths (s : State) : Nat := s.hlit.toNat + s.hdist.toNat

/-- The writes of ApplyCLSymbol for value `v` and repeat count `r` (41 R182); the unspecified entries above stay, DESIGN
CHOICE (log 30). -/
def writeRun (v : BitVec 4) (r : Nat) (s : State) : State :=
  { s with lens := setRun s.lens s.lidx.toNat r v, lidx := BitVec.ofNat 9 (s.lidx.toNat + r) }

/-- ApplyCLSymbol once the value and the repeat count are known (41 R182), with what the element does after it
(43 R249). -/
def applyRun (v : BitVec 4) (r : Nat) (s : State) : Except Raise State :=
  if totalLengths s < s.lidx.toNat + r then .error (.error .invalidCodeLengths s.pos.toNat 0x103)
  else if s.lidx.toNat + r = totalLengths s then buildDynamic (writeRun v r s)
  else .ok (writeRun v r s)

/-! ## Matches -/

/-- The distance half of a match: the length already read is in `mlen` (43 R253, R255). -/
def distanceField (d x : Nat) (s : State) : Except Raise State :=
  if 30 ≤ d then .error (.error .invalidDistanceSymbol s.pos.toNat d)
  else outCopy s.mlen.toNat (matchDistance d x) s

/-- A match (43 R253): the length part, then the distance field. -/
def matchField (sym e d x : Nat) (s : State) : Except Raise State :=
  distanceField d x { s with mlen := BitVec.ofNat 9 (matchLength sym e) }

/-- A literal/length symbol that is no literal, no EOB and no length (43 R254). -/
def invalidLitlen (sym : Nat) (s : State) : Except Raise State :=
  .error (.error .invalidLitlenSymbol s.pos.toNat sym)

/-- An ILLEGAL_COMMAND raise: `reason` and the opcode (44 R300, 60 R340). -/
def illegalCommand (reason op : Nat) (s : State) : Except Raise State :=
  .error (.error .illegalCommand s.pos.toNat (reason * 256 + op))

end Sys2Proof.Machine
end

