-- ==== Sys2Proof/Machine/Blocks.lean ====
section
/-! DEFINITION. Block headers, stored blocks and method 0 (43 R242-R246, R259-R260). -/

namespace Sys2Proof.Machine

/-- Block header, BTYPE 0 (43 R242). -/
def execBlockStored (f : Bool) (s : State) : Host.Outcome State Fault Refusal := runElement s (.ok (latchBlock f 0 .storedHdr s))

/-- Block header, BTYPE 1 (43 R242, R243). -/
def execBlockFixed (f : Bool) (s : State) : Host.Outcome State Fault Refusal :=
  runElement s (.ok (loadFixed (latchBlock f 1 .huffData s)))

/-- Block header, BTYPE 2 (43 R242). -/
def execBlockDynamic (f : Bool) (s : State) : Host.Outcome State Fault Refusal := runElement s (.ok (latchBlock f 2 .dynCounts s))

/-- Block header, BTYPE 3: an error, `f` is not latched (43 R259). -/
def execBlockReserved (_f : Bool) (s : State) : Host.Outcome State Fault Refusal :=
  runElement s (.error (.error .invalidBlockType s.pos.toNat 3))

/-- Stored header once LEN and NLEN are read (43 R244). -/
def storedHeader (len nlen : BitVec 16) (s : State) : Except Raise State :=
  if nlen ≠ len ^^^ 0xFFFF then
    .error (.error .storedLengthMismatch s.pos.toNat (len.toNat + nlen.toNat * 65536))
  else if len = 0 then endOfBlock { s with storedRem := len }
  else .ok { s with storedRem := len, dstate := .storedData }

/-- Stored header (43 R244). -/
def execStoredHdr (len nlen : BitVec 16) (s : State) : Host.Outcome State Fault Refusal := runElement s (storedHeader len nlen s)

/-- `STORED_REM <- STORED_REM - 1` (43 R245, log 15). -/
def countStored (s : State) : State := { s with storedRem := BitVec.ofNat 16 (s.storedRem.toNat - 1) }

/-- Stored byte once it is read (43 R245). -/
def storedByte (b : Byte) (s : State) : Except Raise State :=
  match outAppend b s with
  | .error r => .error r
  | .ok t => if (countStored t).storedRem = 0 then endOfBlock (countStored t) else .ok (countStored t)

/-- Stored byte (43 R245). -/
def execStoredByte (b : Byte) (s : State) : Host.Outcome State Fault Refusal := runElement s (storedByte b s)

/-- `if OUT_PTR = USIZE then Finish()` (43 R260). -/
def finishIfFull (s : State) : Except Raise State := if s.outPtr = s.usize then finish s else .ok s

/-- Raw byte once it is read; no byte is read when OUT_PTR has reached USIZE (43 R260, log 20). -/
def rawByte (b : Byte) (s : State) : Except Raise State :=
  if s.outPtr.toNat < s.usize.toNat then
    match outAppend b s with
    | .error r => .error r
    | .ok t => finishIfFull t
  else finishIfFull s

/-- Raw byte (43 R260). -/
def execRawByte (b : Byte) (s : State) : Host.Outcome State Fault Refusal := runElement s (rawByte b s)

end Sys2Proof.Machine
end

