-- ==== Sys2Proof/Machine/Commands.lean ====
section
/-! DEFINITION. The host commands (44 R300-R308). Arguments are sampled from ARG0..ARG2 (44 R300). -/

namespace Sys2Proof.Machine

/-- NOP (44 R301). -/
def execNop (s : State) : Host.Outcome State Fault Refusal := runCommand s (.ok s)

/-- OPEN (44 R302). -/
def execOpenSession (s : State) : Host.Outcome State Fault Refusal := runCommand s (.ok (sessionReset .idle s))

/-- CLOSE (44 R303). -/
def execCloseSession (s : State) : Host.Outcome State Fault Refusal := runCommand s (.ok (sessionReset .closed s))

/-- STATE in which START_ENTRY is legal (44 R300). -/
def startLegal : EState → Bool
  | .idle | .done | .error => true
  | .closed | .run | .waiting => false

/-- STATE in which APPEND_INPUT is legal, and host writes to IN are admitted (44 R300, 20 R61). -/
def appendLegal : EState → Bool
  | .run | .waiting | .done => true
  | .closed | .idle | .error => false

/-- What an accepted START_ENTRY does (44 R304). -/
def beginEntry (m : BitVec 8) (sol : Bool) (cs us : Word) (s : State) : State :=
  { entryInit { s with
      method := m
      solid := sol
      csize := cs
      usize := us
      inRecv := 0
      errcode := 0
      errpos := 0
      erraux := 0
      progFile := 0 } with state := .run }

/-- START_ENTRY with its arguments, the checks in order (44 R304, R305). -/
def startEntry (a0 cs us : Word) (s : State) : Except Raise State :=
  if startLegal s.state = false then illegalCommand 2 0x03 s
  else if s.cfg.inCap ≤ cs.toNat ∨ s.cfg.outCap < us.toNat then illegalCommand 3 0x03 s
  else if startMethod a0 ≠ 0 ∧ startMethod a0 ≠ 8 then
    .error (.error .unsupportedCompressionMethod s.pos.toNat (startMethod a0).toNat)
  else if startSolid a0 = true ∧ s.taint = true then .error (.error .historyBroken s.pos.toNat 0)
  else if startMethod a0 = 0 ∧ cs ≠ us then .error (.error .lengthMismatch s.pos.toNat cs.toNat)
  else .ok (beginEntry (startMethod a0) (startSolid a0) cs us s)

/-- START_ENTRY (44 R304). -/
def execStartEntry (s : State) : Host.Outcome State Fault Refusal := runCommand s (startEntry s.arg0 s.arg1 s.arg2 s)

/-- `IN_RECV <- IN_RECV + k` (44 R306). -/
def deliver (k : Nat) (s : State) : State := { s with inRecv := BitVec.ofNat 32 (s.inRecv.toNat + k) }

/-- APPEND_INPUT with its argument (44 R306). -/
def appendInput (k : Word) (s : State) : Except Raise State :=
  if appendLegal s.state = false then illegalCommand 2 0x04 s
  else if s.csize.toNat < s.inRecv.toNat + k.toNat then illegalCommand 4 0x04 s
  else if s.state = .waiting then .ok (resume (deliver k.toNat s))
  else .ok (deliver k.toNat s)

/-- APPEND_INPUT (44 R306). -/
def execAppendInput (s : State) : Host.Outcome State Fault Refusal := runCommand s (appendInput s.arg0 s)

/-- Opcodes 0x05..0xFF (44 R308). -/
def execIllegalOpcode (op : BitVec 8) (s : State) : Host.Outcome State Fault Refusal := runCommand s (illegalCommand 1 op.toNat s)

end Sys2Proof.Machine
end

