-- ==== Sys2Proof/Machine/Data.lean ====
section
/-! DEFINITION. Literals, end of block, matches and the invalid literal/length symbols (43 R251-R254). -/

namespace Sys2Proof.Machine

/-- Literal (43 R251). -/
def execLit (b : Byte) (s : State) : Host.Outcome State Fault Refusal := runElement s (outAppend b s)

/-- End of block (43 R252). -/
def execEob (s : State) : Host.Outcome State Fault Refusal := runElement s (endOfBlock s)

/-- Match of length symbol 257 (43 R253). -/
def execMatchL257 (d : BitVec 5) (x : BitVec 13) (s : State) : Host.Outcome State Fault Refusal :=
  runElement s (matchField 257 0 d.toNat x.toNat s)

/-- Match of length symbol 258 (43 R253). -/
def execMatchL258 (d : BitVec 5) (x : BitVec 13) (s : State) : Host.Outcome State Fault Refusal :=
  runElement s (matchField 258 0 d.toNat x.toNat s)

/-- Match of length symbol 259 (43 R253). -/
def execMatchL259 (d : BitVec 5) (x : BitVec 13) (s : State) : Host.Outcome State Fault Refusal :=
  runElement s (matchField 259 0 d.toNat x.toNat s)

/-- Match of length symbol 260 (43 R253). -/
def execMatchL260 (d : BitVec 5) (x : BitVec 13) (s : State) : Host.Outcome State Fault Refusal :=
  runElement s (matchField 260 0 d.toNat x.toNat s)

/-- Match of length symbol 261 (43 R253). -/
def execMatchL261 (d : BitVec 5) (x : BitVec 13) (s : State) : Host.Outcome State Fault Refusal :=
  runElement s (matchField 261 0 d.toNat x.toNat s)

/-- Match of length symbol 262 (43 R253). -/
def execMatchL262 (d : BitVec 5) (x : BitVec 13) (s : State) : Host.Outcome State Fault Refusal :=
  runElement s (matchField 262 0 d.toNat x.toNat s)

/-- Match of length symbol 263 (43 R253). -/
def execMatchL263 (d : BitVec 5) (x : BitVec 13) (s : State) : Host.Outcome State Fault Refusal :=
  runElement s (matchField 263 0 d.toNat x.toNat s)

/-- Match of length symbol 264 (43 R253). -/
def execMatchL264 (d : BitVec 5) (x : BitVec 13) (s : State) : Host.Outcome State Fault Refusal :=
  runElement s (matchField 264 0 d.toNat x.toNat s)

/-- Match of length symbol 265 (43 R253). -/
def execMatchL265 (e : BitVec 1) (d : BitVec 5) (x : BitVec 13) (s : State) : Host.Outcome State Fault Refusal :=
  runElement s (matchField 265 e.toNat d.toNat x.toNat s)

/-- Match of length symbol 266 (43 R253). -/
def execMatchL266 (e : BitVec 1) (d : BitVec 5) (x : BitVec 13) (s : State) : Host.Outcome State Fault Refusal :=
  runElement s (matchField 266 e.toNat d.toNat x.toNat s)

/-- Match of length symbol 267 (43 R253). -/
def execMatchL267 (e : BitVec 1) (d : BitVec 5) (x : BitVec 13) (s : State) : Host.Outcome State Fault Refusal :=
  runElement s (matchField 267 e.toNat d.toNat x.toNat s)

/-- Match of length symbol 268 (43 R253). -/
def execMatchL268 (e : BitVec 1) (d : BitVec 5) (x : BitVec 13) (s : State) : Host.Outcome State Fault Refusal :=
  runElement s (matchField 268 e.toNat d.toNat x.toNat s)

/-- Match of length symbol 269 (43 R253). -/
def execMatchL269 (e : BitVec 2) (d : BitVec 5) (x : BitVec 13) (s : State) : Host.Outcome State Fault Refusal :=
  runElement s (matchField 269 e.toNat d.toNat x.toNat s)

/-- Match of length symbol 270 (43 R253). -/
def execMatchL270 (e : BitVec 2) (d : BitVec 5) (x : BitVec 13) (s : State) : Host.Outcome State Fault Refusal :=
  runElement s (matchField 270 e.toNat d.toNat x.toNat s)

/-- Match of length symbol 271 (43 R253). -/
def execMatchL271 (e : BitVec 2) (d : BitVec 5) (x : BitVec 13) (s : State) : Host.Outcome State Fault Refusal :=
  runElement s (matchField 271 e.toNat d.toNat x.toNat s)

/-- Match of length symbol 272 (43 R253). -/
def execMatchL272 (e : BitVec 2) (d : BitVec 5) (x : BitVec 13) (s : State) : Host.Outcome State Fault Refusal :=
  runElement s (matchField 272 e.toNat d.toNat x.toNat s)

/-- Match of length symbol 273 (43 R253). -/
def execMatchL273 (e : BitVec 3) (d : BitVec 5) (x : BitVec 13) (s : State) : Host.Outcome State Fault Refusal :=
  runElement s (matchField 273 e.toNat d.toNat x.toNat s)

/-- Match of length symbol 274 (43 R253). -/
def execMatchL274 (e : BitVec 3) (d : BitVec 5) (x : BitVec 13) (s : State) : Host.Outcome State Fault Refusal :=
  runElement s (matchField 274 e.toNat d.toNat x.toNat s)

/-- Match of length symbol 275 (43 R253). -/
def execMatchL275 (e : BitVec 3) (d : BitVec 5) (x : BitVec 13) (s : State) : Host.Outcome State Fault Refusal :=
  runElement s (matchField 275 e.toNat d.toNat x.toNat s)

/-- Match of length symbol 276 (43 R253). -/
def execMatchL276 (e : BitVec 3) (d : BitVec 5) (x : BitVec 13) (s : State) : Host.Outcome State Fault Refusal :=
  runElement s (matchField 276 e.toNat d.toNat x.toNat s)

/-- Match of length symbol 277 (43 R253). -/
def execMatchL277 (e : BitVec 4) (d : BitVec 5) (x : BitVec 13) (s : State) : Host.Outcome State Fault Refusal :=
  runElement s (matchField 277 e.toNat d.toNat x.toNat s)

/-- Match of length symbol 278 (43 R253). -/
def execMatchL278 (e : BitVec 4) (d : BitVec 5) (x : BitVec 13) (s : State) : Host.Outcome State Fault Refusal :=
  runElement s (matchField 278 e.toNat d.toNat x.toNat s)

/-- Match of length symbol 279 (43 R253). -/
def execMatchL279 (e : BitVec 4) (d : BitVec 5) (x : BitVec 13) (s : State) : Host.Outcome State Fault Refusal :=
  runElement s (matchField 279 e.toNat d.toNat x.toNat s)

/-- Match of length symbol 280 (43 R253). -/
def execMatchL280 (e : BitVec 4) (d : BitVec 5) (x : BitVec 13) (s : State) : Host.Outcome State Fault Refusal :=
  runElement s (matchField 280 e.toNat d.toNat x.toNat s)

/-- Match of length symbol 281 (43 R253). -/
def execMatchL281 (e : BitVec 5) (d : BitVec 5) (x : BitVec 13) (s : State) : Host.Outcome State Fault Refusal :=
  runElement s (matchField 281 e.toNat d.toNat x.toNat s)

/-- Match of length symbol 282 (43 R253). -/
def execMatchL282 (e : BitVec 5) (d : BitVec 5) (x : BitVec 13) (s : State) : Host.Outcome State Fault Refusal :=
  runElement s (matchField 282 e.toNat d.toNat x.toNat s)

/-- Match of length symbol 283 (43 R253). -/
def execMatchL283 (e : BitVec 5) (d : BitVec 5) (x : BitVec 13) (s : State) : Host.Outcome State Fault Refusal :=
  runElement s (matchField 283 e.toNat d.toNat x.toNat s)

/-- Match of length symbol 284 (43 R253). -/
def execMatchL284 (e : BitVec 5) (d : BitVec 5) (x : BitVec 13) (s : State) : Host.Outcome State Fault Refusal :=
  runElement s (matchField 284 e.toNat d.toNat x.toNat s)

/-- Match of length symbol 285 (43 R253). -/
def execMatchL285 (d : BitVec 5) (x : BitVec 13) (s : State) : Host.Outcome State Fault Refusal :=
  runElement s (matchField 285 0 d.toNat x.toNat s)

/-- Literal/length symbol 286 (43 R254). -/
def execLitlenInvalid286 (s : State) : Host.Outcome State Fault Refusal := runElement s (invalidLitlen 286 s)

/-- Literal/length symbol 287 (43 R254). -/
def execLitlenInvalid287 (s : State) : Host.Outcome State Fault Refusal := runElement s (invalidLitlen 287 s)

end Sys2Proof.Machine
end

