-- ==== Sys2Proof/Machine/Distance.lean ====
section
/-! DEFINITION. The distance fields (43 R253, R255): what a distance symbol does to the match whose length has been read
(`mlen`, log 11). -/

namespace Sys2Proof.Machine

/-- Distance symbol 0 (43 R253). -/
def execDist0 (s : State) : Host.Outcome State Fault Refusal := runElement s (distanceField 0 0 s)

/-- Distance symbol 1 (43 R253). -/
def execDist1 (s : State) : Host.Outcome State Fault Refusal := runElement s (distanceField 1 0 s)

/-- Distance symbol 2 (43 R253). -/
def execDist2 (s : State) : Host.Outcome State Fault Refusal := runElement s (distanceField 2 0 s)

/-- Distance symbol 3 (43 R253). -/
def execDist3 (s : State) : Host.Outcome State Fault Refusal := runElement s (distanceField 3 0 s)

/-- Distance symbol 4 (43 R253). -/
def execDist4 (x : BitVec 1) (s : State) : Host.Outcome State Fault Refusal := runElement s (distanceField 4 x.toNat s)

/-- Distance symbol 5 (43 R253). -/
def execDist5 (x : BitVec 1) (s : State) : Host.Outcome State Fault Refusal := runElement s (distanceField 5 x.toNat s)

/-- Distance symbol 6 (43 R253). -/
def execDist6 (x : BitVec 2) (s : State) : Host.Outcome State Fault Refusal := runElement s (distanceField 6 x.toNat s)

/-- Distance symbol 7 (43 R253). -/
def execDist7 (x : BitVec 2) (s : State) : Host.Outcome State Fault Refusal := runElement s (distanceField 7 x.toNat s)

/-- Distance symbol 8 (43 R253). -/
def execDist8 (x : BitVec 3) (s : State) : Host.Outcome State Fault Refusal := runElement s (distanceField 8 x.toNat s)

/-- Distance symbol 9 (43 R253). -/
def execDist9 (x : BitVec 3) (s : State) : Host.Outcome State Fault Refusal := runElement s (distanceField 9 x.toNat s)

/-- Distance symbol 10 (43 R253). -/
def execDist10 (x : BitVec 4) (s : State) : Host.Outcome State Fault Refusal := runElement s (distanceField 10 x.toNat s)

/-- Distance symbol 11 (43 R253). -/
def execDist11 (x : BitVec 4) (s : State) : Host.Outcome State Fault Refusal := runElement s (distanceField 11 x.toNat s)

/-- Distance symbol 12 (43 R253). -/
def execDist12 (x : BitVec 5) (s : State) : Host.Outcome State Fault Refusal := runElement s (distanceField 12 x.toNat s)

/-- Distance symbol 13 (43 R253). -/
def execDist13 (x : BitVec 5) (s : State) : Host.Outcome State Fault Refusal := runElement s (distanceField 13 x.toNat s)

/-- Distance symbol 14 (43 R253). -/
def execDist14 (x : BitVec 6) (s : State) : Host.Outcome State Fault Refusal := runElement s (distanceField 14 x.toNat s)

/-- Distance symbol 15 (43 R253). -/
def execDist15 (x : BitVec 6) (s : State) : Host.Outcome State Fault Refusal := runElement s (distanceField 15 x.toNat s)

/-- Distance symbol 16 (43 R253). -/
def execDist16 (x : BitVec 7) (s : State) : Host.Outcome State Fault Refusal := runElement s (distanceField 16 x.toNat s)

/-- Distance symbol 17 (43 R253). -/
def execDist17 (x : BitVec 7) (s : State) : Host.Outcome State Fault Refusal := runElement s (distanceField 17 x.toNat s)

/-- Distance symbol 18 (43 R253). -/
def execDist18 (x : BitVec 8) (s : State) : Host.Outcome State Fault Refusal := runElement s (distanceField 18 x.toNat s)

/-- Distance symbol 19 (43 R253). -/
def execDist19 (x : BitVec 8) (s : State) : Host.Outcome State Fault Refusal := runElement s (distanceField 19 x.toNat s)

/-- Distance symbol 20 (43 R253). -/
def execDist20 (x : BitVec 9) (s : State) : Host.Outcome State Fault Refusal := runElement s (distanceField 20 x.toNat s)

/-- Distance symbol 21 (43 R253). -/
def execDist21 (x : BitVec 9) (s : State) : Host.Outcome State Fault Refusal := runElement s (distanceField 21 x.toNat s)

/-- Distance symbol 22 (43 R253). -/
def execDist22 (x : BitVec 10) (s : State) : Host.Outcome State Fault Refusal := runElement s (distanceField 22 x.toNat s)

/-- Distance symbol 23 (43 R253). -/
def execDist23 (x : BitVec 10) (s : State) : Host.Outcome State Fault Refusal := runElement s (distanceField 23 x.toNat s)

/-- Distance symbol 24 (43 R253). -/
def execDist24 (x : BitVec 11) (s : State) : Host.Outcome State Fault Refusal := runElement s (distanceField 24 x.toNat s)

/-- Distance symbol 25 (43 R253). -/
def execDist25 (x : BitVec 11) (s : State) : Host.Outcome State Fault Refusal := runElement s (distanceField 25 x.toNat s)

/-- Distance symbol 26 (43 R253). -/
def execDist26 (x : BitVec 12) (s : State) : Host.Outcome State Fault Refusal := runElement s (distanceField 26 x.toNat s)

/-- Distance symbol 27 (43 R253). -/
def execDist27 (x : BitVec 12) (s : State) : Host.Outcome State Fault Refusal := runElement s (distanceField 27 x.toNat s)

/-- Distance symbol 28 (43 R253). -/
def execDist28 (x : BitVec 13) (s : State) : Host.Outcome State Fault Refusal := runElement s (distanceField 28 x.toNat s)

/-- Distance symbol 29 (43 R253). -/
def execDist29 (x : BitVec 13) (s : State) : Host.Outcome State Fault Refusal := runElement s (distanceField 29 x.toNat s)

/-- Distance symbol 30 (43 R255). -/
def execDistInvalid30 (s : State) : Host.Outcome State Fault Refusal := runElement s (distanceField 30 0 s)

/-- Distance symbol 31 (43 R255). -/
def execDistInvalid31 (s : State) : Host.Outcome State Fault Refusal := runElement s (distanceField 31 0 s)

end Sys2Proof.Machine
end

