-- ==== Sys2Proof/Machine/Dynamic.lean ====
section
/-! DEFINITION. The dynamic header (43 R247-R250, 41 R182). -/

namespace Sys2Proof.Machine

/-- Dynamic counts once read (43 R247). -/
def dynamicCounts (l d c : Nat) (s : State) : Except Raise State :=
  if 286 < hlitOf l then .error (.error .invalidCodeLengths s.pos.toNat 0x105)
  else if 30 < hdistOf d then .error (.error .invalidCodeLengths s.pos.toNat 0x205)
  else
    .ok { s with
      hlit := BitVec.ofNat 9 (hlitOf l)
      hdist := BitVec.ofNat 6 (hdistOf d)
      hclen := BitVec.ofNat 5 (hclenOf c)
      dstate := .dynCllen }

/-- Dynamic counts (43 R247). -/
def execDynCounts (l d : BitVec 5) (c : BitVec 4) (s : State) : Host.Outcome State Fault Refusal :=
  runElement s (dynamicCounts l.toNat d.toNat c.toNat s)

/-- Code-length-code lengths once read (43 R248). The LENS entries of an earlier dynamic block, all of them at or above
the new LIDX = 0 and so unspecified (10 R31, 93 U5), stay as they are, DESIGN CHOICE (log 30). -/
def buildCl (ls : List (BitVec 3)) (s : State) : Except Raise State :=
  match huffBuild 0 (clLengths ls) Config.maxBitsCl s.pos.toNat with
  | .error r => .error r
  | .ok t => .ok { s with tCl := t, lidx := 0, dstate := .dynLens }

/-- Code-length-code lengths (43 R248). -/
def execDynCllen (ls : List (BitVec 3)) (s : State) : Host.Outcome State Fault Refusal := runElement s (buildCl ls s)

/-- Code-length symbol 0..15 (41 R182, 43 R249). -/
def execClLen (n : BitVec 4) (s : State) : Host.Outcome State Fault Refusal := runElement s (applyRun n 1 s)

/-- Code-length symbol 16 once its extra bits are read (41 R182). -/
def repeatPrevious (r : Nat) (s : State) : Except Raise State :=
  if s.lidx = 0 then .error (.error .invalidCodeLengths s.pos.toNat 0x102)
  else applyRun (lensAt s (s.lidx.toNat - 1)) (repeatPrevCount r) s

/-- Code-length symbol 16 (41 R182, 43 R249). -/
def execClRepeatPrev (r : BitVec 2) (s : State) : Host.Outcome State Fault Refusal := runElement s (repeatPrevious r.toNat s)

/-- Code-length symbol 17 (41 R182, 43 R249). -/
def execClRepeatZeroShort (r : BitVec 3) (s : State) : Host.Outcome State Fault Refusal :=
  runElement s (applyRun 0 (repeatZeroShortCount r.toNat) s)

/-- Code-length symbol 18 (41 R182, 43 R249). -/
def execClRepeatZeroLong (r : BitVec 7) (s : State) : Host.Outcome State Fault Refusal :=
  runElement s (applyRun 0 (repeatZeroLongCount r.toNat) s)

end Sys2Proof.Machine
end

