-- ==== Sys2Proof/Syntax.lean ====
section
/-! DEFINITION. The instructions: one constructor per row of spec/opcode_table.json, in the table's order.
A host command (30 R107-R108), a stream element (30 R90), or the distance field inside a match (30 R98). -/

namespace Sys2Proof

/-- One row of the opcode table with its operands. Command operands stand in ARG0..ARG2, not in the word
(30 R107). Ignored bits (CMD bits 31:8, the padding of a stored header) are no operands. -/
inductive Instr where
  /-- NOP: no effect (44 R301) -/
  | nop
  /-- OPEN: open a session (44 R302) -/
  | openSession
  /-- CLOSE: close the session (44 R303) -/
  | closeSession
  /-- START_ENTRY: start an entry; operands in ARG0..ARG2 (44 R304) -/
  | startEntry
  /-- APPEND_INPUT: deliver `ARG0` more bytes (44 R306) -/
  | appendInput
  /-- ILLEGAL_OPCODE: opcodes 0x05..0xFF (44 R308) -/
  | illegalOpcode (op : BitVec 8)
  /-- BLOCK_STORED: block header, BTYPE 0, `f` = BFINAL (43 R242) -/
  | blockStored (f : Bool)
  /-- BLOCK_FIXED: block header, BTYPE 1 (43 R242, R243) -/
  | blockFixed (f : Bool)
  /-- BLOCK_DYNAMIC: block header, BTYPE 2 (43 R242) -/
  | blockDynamic (f : Bool)
  /-- BLOCK_RESERVED: block header, BTYPE 3, an error (43 R259) -/
  | blockReserved (f : Bool)
  /-- STORED_HDR: LEN and NLEN after the alignment (43 R244) -/
  | storedHdr (len : BitVec 16) (nlen : BitVec 16)
  /-- STORED_BYTE: one byte of a stored block (43 R245) -/
  | storedByte (b : Byte)
  /-- DYN_COUNTS: HLIT - 257, HDIST - 1, HCLEN - 4 (43 R247) -/
  | dynCounts (l : BitVec 5) (d : BitVec 5) (c : BitVec 4)
  /-- DYN_CLLEN: HCLEN code-length-code lengths in CLORDER (43 R248) -/
  | dynCllen (ls : List (BitVec 3))
  /-- CL_LEN: code-length symbol 0..15 (41 R182, 43 R249) -/
  | clLen (n : BitVec 4)
  /-- CL_REPEAT_PREV: code-length symbol 16 (41 R182) -/
  | clRepeatPrev (r : BitVec 2)
  /-- CL_REPEAT_ZERO_SHORT: code-length symbol 17 (41 R182) -/
  | clRepeatZeroShort (r : BitVec 3)
  /-- CL_REPEAT_ZERO_LONG: code-length symbol 18 (41 R182) -/
  | clRepeatZeroLong (r : BitVec 7)
  /-- LIT: literal byte (43 R251) -/
  | lit (b : Byte)
  /-- EOB: end of block (43 R252) -/
  | eob
  /-- MATCH_L257: match, length 3, distance symbol `d` with extra value `x` (43 R253) -/
  | matchL257 (d : BitVec 5) (x : BitVec 13)
  /-- MATCH_L258: match, length 4, distance symbol `d` with extra value `x` (43 R253) -/
  | matchL258 (d : BitVec 5) (x : BitVec 13)
  /-- MATCH_L259: match, length 5, distance symbol `d` with extra value `x` (43 R253) -/
  | matchL259 (d : BitVec 5) (x : BitVec 13)
  /-- MATCH_L260: match, length 6, distance symbol `d` with extra value `x` (43 R253) -/
  | matchL260 (d : BitVec 5) (x : BitVec 13)
  /-- MATCH_L261: match, length 7, distance symbol `d` with extra value `x` (43 R253) -/
  | matchL261 (d : BitVec 5) (x : BitVec 13)
  /-- MATCH_L262: match, length 8, distance symbol `d` with extra value `x` (43 R253) -/
  | matchL262 (d : BitVec 5) (x : BitVec 13)
  /-- MATCH_L263: match, length 9, distance symbol `d` with extra value `x` (43 R253) -/
  | matchL263 (d : BitVec 5) (x : BitVec 13)
  /-- MATCH_L264: match, length 10, distance symbol `d` with extra value `x` (43 R253) -/
  | matchL264 (d : BitVec 5) (x : BitVec 13)
  /-- MATCH_L265: match, length 11 + e, distance symbol `d` with extra value `x` (43 R253) -/
  | matchL265 (e : BitVec 1) (d : BitVec 5) (x : BitVec 13)
  /-- MATCH_L266: match, length 13 + e, distance symbol `d` with extra value `x` (43 R253) -/
  | matchL266 (e : BitVec 1) (d : BitVec 5) (x : BitVec 13)
  /-- MATCH_L267: match, length 15 + e, distance symbol `d` with extra value `x` (43 R253) -/
  | matchL267 (e : BitVec 1) (d : BitVec 5) (x : BitVec 13)
  /-- MATCH_L268: match, length 17 + e, distance symbol `d` with extra value `x` (43 R253) -/
  | matchL268 (e : BitVec 1) (d : BitVec 5) (x : BitVec 13)
  /-- MATCH_L269: match, length 19 + e, distance symbol `d` with extra value `x` (43 R253) -/
  | matchL269 (e : BitVec 2) (d : BitVec 5) (x : BitVec 13)
  /-- MATCH_L270: match, length 23 + e, distance symbol `d` with extra value `x` (43 R253) -/
  | matchL270 (e : BitVec 2) (d : BitVec 5) (x : BitVec 13)
  /-- MATCH_L271: match, length 27 + e, distance symbol `d` with extra value `x` (43 R253) -/
  | matchL271 (e : BitVec 2) (d : BitVec 5) (x : BitVec 13)
  /-- MATCH_L272: match, length 31 + e, distance symbol `d` with extra value `x` (43 R253) -/
  | matchL272 (e : BitVec 2) (d : BitVec 5) (x : BitVec 13)
  /-- MATCH_L273: match, length 35 + e, distance symbol `d` with extra value `x` (43 R253) -/
  | matchL273 (e : BitVec 3) (d : BitVec 5) (x : BitVec 13)
  /-- MATCH_L274: match, length 43 + e, distance symbol `d` with extra value `x` (43 R253) -/
  | matchL274 (e : BitVec 3) (d : BitVec 5) (x : BitVec 13)
  /-- MATCH_L275: match, length 51 + e, distance symbol `d` with extra value `x` (43 R253) -/
  | matchL275 (e : BitVec 3) (d : BitVec 5) (x : BitVec 13)
  /-- MATCH_L276: match, length 59 + e, distance symbol `d` with extra value `x` (43 R253) -/
  | matchL276 (e : BitVec 3) (d : BitVec 5) (x : BitVec 13)
  /-- MATCH_L277: match, length 67 + e, distance symbol `d` with extra value `x` (43 R253) -/
  | matchL277 (e : BitVec 4) (d : BitVec 5) (x : BitVec 13)
  /-- MATCH_L278: match, length 83 + e, distance symbol `d` with extra value `x` (43 R253) -/
  | matchL278 (e : BitVec 4) (d : BitVec 5) (x : BitVec 13)
  /-- MATCH_L279: match, length 99 + e, distance symbol `d` with extra value `x` (43 R253) -/
  | matchL279 (e : BitVec 4) (d : BitVec 5) (x : BitVec 13)
  /-- MATCH_L280: match, length 115 + e, distance symbol `d` with extra value `x` (43 R253) -/
  | matchL280 (e : BitVec 4) (d : BitVec 5) (x : BitVec 13)
  /-- MATCH_L281: match, length 131 + e, distance symbol `d` with extra value `x` (43 R253) -/
  | matchL281 (e : BitVec 5) (d : BitVec 5) (x : BitVec 13)
  /-- MATCH_L282: match, length 163 + e, distance symbol `d` with extra value `x` (43 R253) -/
  | matchL282 (e : BitVec 5) (d : BitVec 5) (x : BitVec 13)
  /-- MATCH_L283: match, length 195 + e, distance symbol `d` with extra value `x` (43 R253) -/
  | matchL283 (e : BitVec 5) (d : BitVec 5) (x : BitVec 13)
  /-- MATCH_L284: match, length 227 + e, distance symbol `d` with extra value `x` (43 R253) -/
  | matchL284 (e : BitVec 5) (d : BitVec 5) (x : BitVec 13)
  /-- MATCH_L285: match, length 258, distance symbol `d` with extra value `x` (43 R253) -/
  | matchL285 (d : BitVec 5) (x : BitVec 13)
  /-- LITLEN_INVALID_286: literal/length symbol 286, an error (43 R254) -/
  | litlenInvalid286
  /-- LITLEN_INVALID_287: literal/length symbol 287, an error (43 R254) -/
  | litlenInvalid287
  /-- DIST_0: distance field, distance 1 (43 R253) -/
  | dist0
  /-- DIST_1: distance field, distance 2 (43 R253) -/
  | dist1
  /-- DIST_2: distance field, distance 3 (43 R253) -/
  | dist2
  /-- DIST_3: distance field, distance 4 (43 R253) -/
  | dist3
  /-- DIST_4: distance field, distance 5 + x (43 R253) -/
  | dist4 (x : BitVec 1)
  /-- DIST_5: distance field, distance 7 + x (43 R253) -/
  | dist5 (x : BitVec 1)
  /-- DIST_6: distance field, distance 9 + x (43 R253) -/
  | dist6 (x : BitVec 2)
  /-- DIST_7: distance field, distance 13 + x (43 R253) -/
  | dist7 (x : BitVec 2)
  /-- DIST_8: distance field, distance 17 + x (43 R253) -/
  | dist8 (x : BitVec 3)
  /-- DIST_9: distance field, distance 25 + x (43 R253) -/
  | dist9 (x : BitVec 3)
  /-- DIST_10: distance field, distance 33 + x (43 R253) -/
  | dist10 (x : BitVec 4)
  /-- DIST_11: distance field, distance 49 + x (43 R253) -/
  | dist11 (x : BitVec 4)
  /-- DIST_12: distance field, distance 65 + x (43 R253) -/
  | dist12 (x : BitVec 5)
  /-- DIST_13: distance field, distance 97 + x (43 R253) -/
  | dist13 (x : BitVec 5)
  /-- DIST_14: distance field, distance 129 + x (43 R253) -/
  | dist14 (x : BitVec 6)
  /-- DIST_15: distance field, distance 193 + x (43 R253) -/
  | dist15 (x : BitVec 6)
  /-- DIST_16: distance field, distance 257 + x (43 R253) -/
  | dist16 (x : BitVec 7)
  /-- DIST_17: distance field, distance 385 + x (43 R253) -/
  | dist17 (x : BitVec 7)
  /-- DIST_18: distance field, distance 513 + x (43 R253) -/
  | dist18 (x : BitVec 8)
  /-- DIST_19: distance field, distance 769 + x (43 R253) -/
  | dist19 (x : BitVec 8)
  /-- DIST_20: distance field, distance 1025 + x (43 R253) -/
  | dist20 (x : BitVec 9)
  /-- DIST_21: distance field, distance 1537 + x (43 R253) -/
  | dist21 (x : BitVec 9)
  /-- DIST_22: distance field, distance 2049 + x (43 R253) -/
  | dist22 (x : BitVec 10)
  /-- DIST_23: distance field, distance 3073 + x (43 R253) -/
  | dist23 (x : BitVec 10)
  /-- DIST_24: distance field, distance 4097 + x (43 R253) -/
  | dist24 (x : BitVec 11)
  /-- DIST_25: distance field, distance 6145 + x (43 R253) -/
  | dist25 (x : BitVec 11)
  /-- DIST_26: distance field, distance 8193 + x (43 R253) -/
  | dist26 (x : BitVec 12)
  /-- DIST_27: distance field, distance 12289 + x (43 R253) -/
  | dist27 (x : BitVec 12)
  /-- DIST_28: distance field, distance 16385 + x (43 R253) -/
  | dist28 (x : BitVec 13)
  /-- DIST_29: distance field, distance 24577 + x (43 R253) -/
  | dist29 (x : BitVec 13)
  /-- DIST_INVALID_30: distance symbol 30, an error (43 R255) -/
  | distInvalid30
  /-- DIST_INVALID_31: distance symbol 31, an error (43 R255) -/
  | distInvalid31
  /-- RAW_BYTE: one byte of a method-0 entry (43 R260) -/
  | rawByte (b : Byte)
deriving DecidableEq, Repr

end Sys2Proof
end

