-- ==== Sys2Proof/Machine/Dispatch.lean ====
section
/-! DEFINITION. One arm per instruction: its meaning. -/

namespace Sys2Proof.Machine

def exec (i : Instr) (s : State) : Host.Outcome State Fault Refusal :=
  match i with
  | .nop => Sys2Proof.Machine.execNop s
  | .openSession => Sys2Proof.Machine.execOpenSession s
  | .closeSession => Sys2Proof.Machine.execCloseSession s
  | .startEntry => Sys2Proof.Machine.execStartEntry s
  | .appendInput => Sys2Proof.Machine.execAppendInput s
  | .illegalOpcode op => Sys2Proof.Machine.execIllegalOpcode op s
  | .blockStored f => Sys2Proof.Machine.execBlockStored f s
  | .blockFixed f => Sys2Proof.Machine.execBlockFixed f s
  | .blockDynamic f => Sys2Proof.Machine.execBlockDynamic f s
  | .blockReserved f => Sys2Proof.Machine.execBlockReserved f s
  | .storedHdr len nlen => Sys2Proof.Machine.execStoredHdr len nlen s
  | .storedByte b => Sys2Proof.Machine.execStoredByte b s
  | .dynCounts l d c => Sys2Proof.Machine.execDynCounts l d c s
  | .dynCllen ls => Sys2Proof.Machine.execDynCllen ls s
  | .clLen n => Sys2Proof.Machine.execClLen n s
  | .clRepeatPrev r => Sys2Proof.Machine.execClRepeatPrev r s
  | .clRepeatZeroShort r => Sys2Proof.Machine.execClRepeatZeroShort r s
  | .clRepeatZeroLong r => Sys2Proof.Machine.execClRepeatZeroLong r s
  | .lit b => Sys2Proof.Machine.execLit b s
  | .eob => Sys2Proof.Machine.execEob s
  | .matchL257 d x => Sys2Proof.Machine.execMatchL257 d x s
  | .matchL258 d x => Sys2Proof.Machine.execMatchL258 d x s
  | .matchL259 d x => Sys2Proof.Machine.execMatchL259 d x s
  | .matchL260 d x => Sys2Proof.Machine.execMatchL260 d x s
  | .matchL261 d x => Sys2Proof.Machine.execMatchL261 d x s
  | .matchL262 d x => Sys2Proof.Machine.execMatchL262 d x s
  | .matchL263 d x => Sys2Proof.Machine.execMatchL263 d x s
  | .matchL264 d x => Sys2Proof.Machine.execMatchL264 d x s
  | .matchL265 e d x => Sys2Proof.Machine.execMatchL265 e d x s
  | .matchL266 e d x => Sys2Proof.Machine.execMatchL266 e d x s
  | .matchL267 e d x => Sys2Proof.Machine.execMatchL267 e d x s
  | .matchL268 e d x => Sys2Proof.Machine.execMatchL268 e d x s
  | .matchL269 e d x => Sys2Proof.Machine.execMatchL269 e d x s
  | .matchL270 e d x => Sys2Proof.Machine.execMatchL270 e d x s
  | .matchL271 e d x => Sys2Proof.Machine.execMatchL271 e d x s
  | .matchL272 e d x => Sys2Proof.Machine.execMatchL272 e d x s
  | .matchL273 e d x => Sys2Proof.Machine.execMatchL273 e d x s
  | .matchL274 e d x => Sys2Proof.Machine.execMatchL274 e d x s
  | .matchL275 e d x => Sys2Proof.Machine.execMatchL275 e d x s
  | .matchL276 e d x => Sys2Proof.Machine.execMatchL276 e d x s
  | .matchL277 e d x => Sys2Proof.Machine.execMatchL277 e d x s
  | .matchL278 e d x => Sys2Proof.Machine.execMatchL278 e d x s
  | .matchL279 e d x => Sys2Proof.Machine.execMatchL279 e d x s
  | .matchL280 e d x => Sys2Proof.Machine.execMatchL280 e d x s
  | .matchL281 e d x => Sys2Proof.Machine.execMatchL281 e d x s
  | .matchL282 e d x => Sys2Proof.Machine.execMatchL282 e d x s
  | .matchL283 e d x => Sys2Proof.Machine.execMatchL283 e d x s
  | .matchL284 e d x => Sys2Proof.Machine.execMatchL284 e d x s
  | .matchL285 d x => Sys2Proof.Machine.execMatchL285 d x s
  | .litlenInvalid286 => Sys2Proof.Machine.execLitlenInvalid286 s
  | .litlenInvalid287 => Sys2Proof.Machine.execLitlenInvalid287 s
  | .dist0 => Sys2Proof.Machine.execDist0 s
  | .dist1 => Sys2Proof.Machine.execDist1 s
  | .dist2 => Sys2Proof.Machine.execDist2 s
  | .dist3 => Sys2Proof.Machine.execDist3 s
  | .dist4 x => Sys2Proof.Machine.execDist4 x s
  | .dist5 x => Sys2Proof.Machine.execDist5 x s
  | .dist6 x => Sys2Proof.Machine.execDist6 x s
  | .dist7 x => Sys2Proof.Machine.execDist7 x s
  | .dist8 x => Sys2Proof.Machine.execDist8 x s
  | .dist9 x => Sys2Proof.Machine.execDist9 x s
  | .dist10 x => Sys2Proof.Machine.execDist10 x s
  | .dist11 x => Sys2Proof.Machine.execDist11 x s
  | .dist12 x => Sys2Proof.Machine.execDist12 x s
  | .dist13 x => Sys2Proof.Machine.execDist13 x s
  | .dist14 x => Sys2Proof.Machine.execDist14 x s
  | .dist15 x => Sys2Proof.Machine.execDist15 x s
  | .dist16 x => Sys2Proof.Machine.execDist16 x s
  | .dist17 x => Sys2Proof.Machine.execDist17 x s
  | .dist18 x => Sys2Proof.Machine.execDist18 x s
  | .dist19 x => Sys2Proof.Machine.execDist19 x s
  | .dist20 x => Sys2Proof.Machine.execDist20 x s
  | .dist21 x => Sys2Proof.Machine.execDist21 x s
  | .dist22 x => Sys2Proof.Machine.execDist22 x s
  | .dist23 x => Sys2Proof.Machine.execDist23 x s
  | .dist24 x => Sys2Proof.Machine.execDist24 x s
  | .dist25 x => Sys2Proof.Machine.execDist25 x s
  | .dist26 x => Sys2Proof.Machine.execDist26 x s
  | .dist27 x => Sys2Proof.Machine.execDist27 x s
  | .dist28 x => Sys2Proof.Machine.execDist28 x s
  | .dist29 x => Sys2Proof.Machine.execDist29 x s
  | .distInvalid30 => Sys2Proof.Machine.execDistInvalid30 s
  | .distInvalid31 => Sys2Proof.Machine.execDistInvalid31 s
  | .rawByte b => Sys2Proof.Machine.execRawByte b s

end Sys2Proof.Machine
end

