-- ==== Sys2Proof/WellFormed.lean ====
section
/-! DEFINITION. Which terms of Instr stand for an encoding of 30_encoding.md. -/

namespace Sys2Proof

/-- A distance extra value fits the DEXTRA bits of its symbol (30 R101). -/
def distanceExtraFits (d : BitVec 5) (x : BitVec 13) : Bool :=
  decide (x.toNat < 2 ^ Machine.distanceExtra d.toNat)

/-- The checks the operand types do not make: an illegal opcode is 0x05 or more (30 R108), a code-length-code
element has 4 to 19 lengths (30 R96, R106), a match's distance extra value fits its field (30 R101). -/
def Instr.wf : Instr → Bool
  | .nop => true
  | .openSession => true
  | .closeSession => true
  | .startEntry => true
  | .appendInput => true
  | .illegalOpcode op => decide (5 ≤ op.toNat)
  | .blockStored _ => true
  | .blockFixed _ => true
  | .blockDynamic _ => true
  | .blockReserved _ => true
  | .storedHdr _ _ => true
  | .storedByte _ => true
  | .dynCounts _ _ _ => true
  | .dynCllen ls => decide (4 ≤ ls.length) && decide (ls.length ≤ 19)
  | .clLen _ => true
  | .clRepeatPrev _ => true
  | .clRepeatZeroShort _ => true
  | .clRepeatZeroLong _ => true
  | .lit _ => true
  | .eob => true
  | .matchL257 d x => distanceExtraFits d x
  | .matchL258 d x => distanceExtraFits d x
  | .matchL259 d x => distanceExtraFits d x
  | .matchL260 d x => distanceExtraFits d x
  | .matchL261 d x => distanceExtraFits d x
  | .matchL262 d x => distanceExtraFits d x
  | .matchL263 d x => distanceExtraFits d x
  | .matchL264 d x => distanceExtraFits d x
  | .matchL265 _ d x => distanceExtraFits d x
  | .matchL266 _ d x => distanceExtraFits d x
  | .matchL267 _ d x => distanceExtraFits d x
  | .matchL268 _ d x => distanceExtraFits d x
  | .matchL269 _ d x => distanceExtraFits d x
  | .matchL270 _ d x => distanceExtraFits d x
  | .matchL271 _ d x => distanceExtraFits d x
  | .matchL272 _ d x => distanceExtraFits d x
  | .matchL273 _ d x => distanceExtraFits d x
  | .matchL274 _ d x => distanceExtraFits d x
  | .matchL275 _ d x => distanceExtraFits d x
  | .matchL276 _ d x => distanceExtraFits d x
  | .matchL277 _ d x => distanceExtraFits d x
  | .matchL278 _ d x => distanceExtraFits d x
  | .matchL279 _ d x => distanceExtraFits d x
  | .matchL280 _ d x => distanceExtraFits d x
  | .matchL281 _ d x => distanceExtraFits d x
  | .matchL282 _ d x => distanceExtraFits d x
  | .matchL283 _ d x => distanceExtraFits d x
  | .matchL284 _ d x => distanceExtraFits d x
  | .matchL285 d x => distanceExtraFits d x
  | .litlenInvalid286 => true
  | .litlenInvalid287 => true
  | .dist0 => true
  | .dist1 => true
  | .dist2 => true
  | .dist3 => true
  | .dist4 _ => true
  | .dist5 _ => true
  | .dist6 _ => true
  | .dist7 _ => true
  | .dist8 _ => true
  | .dist9 _ => true
  | .dist10 _ => true
  | .dist11 _ => true
  | .dist12 _ => true
  | .dist13 _ => true
  | .dist14 _ => true
  | .dist15 _ => true
  | .dist16 _ => true
  | .dist17 _ => true
  | .dist18 _ => true
  | .dist19 _ => true
  | .dist20 _ => true
  | .dist21 _ => true
  | .dist22 _ => true
  | .dist23 _ => true
  | .dist24 _ => true
  | .dist25 _ => true
  | .dist26 _ => true
  | .dist27 _ => true
  | .dist28 _ => true
  | .dist29 _ => true
  | .distInvalid30 => true
  | .distInvalid31 => true
  | .rawByte _ => true

end Sys2Proof
end

