-- ==== Sys2Proof/Decode.lean ====
section
/-! DEFINITION. The decoder of the two encodings (command words 30 R107-R108, stream elements 30 R90-R98, R110), total,
and after it the encoder. -/

namespace Sys2Proof

open Machine

/-- The command a CMD word issues: bits 7:0 select it, bits 31:8 are ignored (30 R107, R108, 44 R300). -/
def decodeCommand (w : Word) : Instr :=
  match (w.extractLsb' 0 8).toNat with
  | 0 => .nop
  | 1 => .openSession
  | 2 => .closeSession
  | 3 => .startEntry
  | 4 => .appendInput
  | n => .illegalOpcode (BitVec.ofNat 8 n)

/-- The instruction read from an opcode-table word: the table's numbered words are CMD words (log 19). -/
def decodeTableWord (nbits w : Nat) : Option Instr := some (decodeCommand (BitVec.ofNat 32 (w % 2 ^ nbits)))

/-- What selects and shapes the next element: DSTATE (10 R28), whether a match's length part has been read (log 11),
HCLEN, LIDX, whether OUT_PTR has reached USIZE (43 R260), and the three tables. -/
structure DecodeCtx where
  dstate : DState
  inMatch : Bool
  hclen : Nat
  lidx : Nat
  outFull : Bool
  tCl : HuffTable
  tLit : HuffTable
  tDist : HuffTable

/-- Block header with BTYPE `t` (30 R92). -/
def blockHeader (f : Bool) (t : Nat) : Instr :=
  match t with
  | 0 => .blockStored f
  | 1 => .blockFixed f
  | 2 => .blockDynamic f
  | _ => .blockReserved f

/-- The match of length symbol `s`, 257..285 (30 R98, R100). -/
def matchInstr (s e d x : Nat) : Instr :=
  match s with
  | 257 => .matchL257 (BitVec.ofNat 5 d) (BitVec.ofNat 13 x)
  | 258 => .matchL258 (BitVec.ofNat 5 d) (BitVec.ofNat 13 x)
  | 259 => .matchL259 (BitVec.ofNat 5 d) (BitVec.ofNat 13 x)
  | 260 => .matchL260 (BitVec.ofNat 5 d) (BitVec.ofNat 13 x)
  | 261 => .matchL261 (BitVec.ofNat 5 d) (BitVec.ofNat 13 x)
  | 262 => .matchL262 (BitVec.ofNat 5 d) (BitVec.ofNat 13 x)
  | 263 => .matchL263 (BitVec.ofNat 5 d) (BitVec.ofNat 13 x)
  | 264 => .matchL264 (BitVec.ofNat 5 d) (BitVec.ofNat 13 x)
  | 265 => .matchL265 (BitVec.ofNat 1 e) (BitVec.ofNat 5 d) (BitVec.ofNat 13 x)
  | 266 => .matchL266 (BitVec.ofNat 1 e) (BitVec.ofNat 5 d) (BitVec.ofNat 13 x)
  | 267 => .matchL267 (BitVec.ofNat 1 e) (BitVec.ofNat 5 d) (BitVec.ofNat 13 x)
  | 268 => .matchL268 (BitVec.ofNat 1 e) (BitVec.ofNat 5 d) (BitVec.ofNat 13 x)
  | 269 => .matchL269 (BitVec.ofNat 2 e) (BitVec.ofNat 5 d) (BitVec.ofNat 13 x)
  | 270 => .matchL270 (BitVec.ofNat 2 e) (BitVec.ofNat 5 d) (BitVec.ofNat 13 x)
  | 271 => .matchL271 (BitVec.ofNat 2 e) (BitVec.ofNat 5 d) (BitVec.ofNat 13 x)
  | 272 => .matchL272 (BitVec.ofNat 2 e) (BitVec.ofNat 5 d) (BitVec.ofNat 13 x)
  | 273 => .matchL273 (BitVec.ofNat 3 e) (BitVec.ofNat 5 d) (BitVec.ofNat 13 x)
  | 274 => .matchL274 (BitVec.ofNat 3 e) (BitVec.ofNat 5 d) (BitVec.ofNat 13 x)
  | 275 => .matchL275 (BitVec.ofNat 3 e) (BitVec.ofNat 5 d) (BitVec.ofNat 13 x)
  | 276 => .matchL276 (BitVec.ofNat 3 e) (BitVec.ofNat 5 d) (BitVec.ofNat 13 x)
  | 277 => .matchL277 (BitVec.ofNat 4 e) (BitVec.ofNat 5 d) (BitVec.ofNat 13 x)
  | 278 => .matchL278 (BitVec.ofNat 4 e) (BitVec.ofNat 5 d) (BitVec.ofNat 13 x)
  | 279 => .matchL279 (BitVec.ofNat 4 e) (BitVec.ofNat 5 d) (BitVec.ofNat 13 x)
  | 280 => .matchL280 (BitVec.ofNat 4 e) (BitVec.ofNat 5 d) (BitVec.ofNat 13 x)
  | 281 => .matchL281 (BitVec.ofNat 5 e) (BitVec.ofNat 5 d) (BitVec.ofNat 13 x)
  | 282 => .matchL282 (BitVec.ofNat 5 e) (BitVec.ofNat 5 d) (BitVec.ofNat 13 x)
  | 283 => .matchL283 (BitVec.ofNat 5 e) (BitVec.ofNat 5 d) (BitVec.ofNat 13 x)
  | 284 => .matchL284 (BitVec.ofNat 5 e) (BitVec.ofNat 5 d) (BitVec.ofNat 13 x)
  | _ => .matchL285 (BitVec.ofNat 5 d) (BitVec.ofNat 13 x)

/-- The distance field of symbol `d`, 0..31 (30 R98, R101). -/
def distanceInstr (d x : Nat) : Instr :=
  match d with
  | 0 => .dist0
  | 1 => .dist1
  | 2 => .dist2
  | 3 => .dist3
  | 4 => .dist4 (BitVec.ofNat 1 x)
  | 5 => .dist5 (BitVec.ofNat 1 x)
  | 6 => .dist6 (BitVec.ofNat 2 x)
  | 7 => .dist7 (BitVec.ofNat 2 x)
  | 8 => .dist8 (BitVec.ofNat 3 x)
  | 9 => .dist9 (BitVec.ofNat 3 x)
  | 10 => .dist10 (BitVec.ofNat 4 x)
  | 11 => .dist11 (BitVec.ofNat 4 x)
  | 12 => .dist12 (BitVec.ofNat 5 x)
  | 13 => .dist13 (BitVec.ofNat 5 x)
  | 14 => .dist14 (BitVec.ofNat 6 x)
  | 15 => .dist15 (BitVec.ofNat 6 x)
  | 16 => .dist16 (BitVec.ofNat 7 x)
  | 17 => .dist17 (BitVec.ofNat 7 x)
  | 18 => .dist18 (BitVec.ofNat 8 x)
  | 19 => .dist19 (BitVec.ofNat 8 x)
  | 20 => .dist20 (BitVec.ofNat 9 x)
  | 21 => .dist21 (BitVec.ofNat 9 x)
  | 22 => .dist22 (BitVec.ofNat 10 x)
  | 23 => .dist23 (BitVec.ofNat 10 x)
  | 24 => .dist24 (BitVec.ofNat 11 x)
  | 25 => .dist25 (BitVec.ofNat 11 x)
  | 26 => .dist26 (BitVec.ofNat 12 x)
  | 27 => .dist27 (BitVec.ofNat 12 x)
  | 28 => .dist28 (BitVec.ofNat 13 x)
  | 29 => .dist29 (BitVec.ofNat 13 x)
  | 30 => .distInvalid30
  | _ => .distInvalid31

/-- Block header element (43 R242): `f`, then BTYPE. -/
def decodeBlockHeader (st : Stream) (p : Nat) : Except Raise (Instr × Nat) := do
  let (f, q) ← readBits st 1 p
  let (t, r) ← readBits st 2 q
  return (blockHeader (f == 1) t, r)

/-- Stored header element (43 R244): alignment, LEN, NLEN. -/
def decodeStoredHdr (st : Stream) (p : Nat) : Except Raise (Instr × Nat) := do
  let (len, q) ← readBits st 16 (alignByte p)
  let (nlen, r) ← readBits st 16 q
  return (.storedHdr (BitVec.ofNat 16 len) (BitVec.ofNat 16 nlen), r)

/-- Stored byte element (43 R245). -/
def decodeStoredByte (st : Stream) (p : Nat) : Except Raise (Instr × Nat) := do
  let (b, q) ← readOneByte st p
  return (.storedByte b, q)

/-- Raw byte element (43 R260): once OUT_PTR has reached USIZE no byte is read (log 20). -/
def decodeRawByte (outFull : Bool) (st : Stream) (p : Nat) : Except Raise (Instr × Nat) :=
  if outFull then .ok (.rawByte 0, p)
  else do
    let (b, q) ← readOneByte st p
    return (.rawByte b, q)

/-- Dynamic counts element (43 R247). -/
def decodeDynCounts (st : Stream) (p : Nat) : Except Raise (Instr × Nat) := do
  let (l, q) ← readBits st 5 p
  let (d, r) ← readBits st 5 q
  let (c, u) ← readBits st 4 r
  return (.dynCounts (BitVec.ofNat 5 l) (BitVec.ofNat 5 d) (BitVec.ofNat 4 c), u)

/-- `n` fields of 3 bits (30 R96). -/
def readLengths (st : Stream) : Nat → Nat → Except Raise (List (BitVec 3) × Nat)
  | 0, p => .ok ([], p)
  | n + 1, p => do
    let (v, q) ← readBits st 3 p
    let (vs, r) ← readLengths st n q
    return (BitVec.ofNat 3 v :: vs, r)

/-- Code-length-code lengths element (43 R248). -/
def decodeDynCllen (hclen : Nat) (st : Stream) (p : Nat) : Except Raise (Instr × Nat) := do
  let (ls, q) ← readLengths st hclen p
  return (.dynCllen ls, q)

/-- Code-length symbol element (30 R97, 41 R182, 43 R249). Symbol 16 with no previous length is an error before its
extra bits are read (41 R182): its operand is then not read (log 21). -/
def decodeClSymbol (t : HuffTable) (lidx : Nat) (st : Stream) (p : Nat) : Except Raise (Instr × Nat) := do
  let (sym, q) ← huffDecode t st p
  if sym ≤ 15 then return (.clLen (BitVec.ofNat 4 sym), q)
  else if sym = 16 then
    if lidx = 0 then return (.clRepeatPrev 0, q)
    else
      let (r, u) ← readBits st 2 q
      return (.clRepeatPrev (BitVec.ofNat 2 r), u)
  else if sym = 17 then
    let (r, u) ← readBits st 3 q
    return (.clRepeatZeroShort (BitVec.ofNat 3 r), u)
  else if sym = 18 then
    let (r, u) ← readBits st 7 q
    return (.clRepeatZeroLong (BitVec.ofNat 7 r), u)
  else .error (.outside .clSymbol)

/-- The distance symbol and its extra value (43 R253): symbols 30 and 31 have no extra bits to read; a symbol past 31
is past the alphabet and is invalid as 43 R253 says of every `d` from 30 on (log 18). `start` is the element start. -/
def readDistance (t : HuffTable) (start : Nat) (st : Stream) (p : Nat) : Except Raise ((Nat × Nat) × Nat) := do
  let (d, q) ← huffDecode t st p
  if 32 ≤ d then .error (.error .invalidDistanceSymbol start d)
  else if 30 ≤ d then return ((d, 0), q)
  else
    let (x, r) ← readBits st (distanceExtra d) q
    return ((d, x), r)

/-- The fields of a match after its length symbol `s` (43 R253). -/
def decodeMatch (t : HuffTable) (s start : Nat) (st : Stream) (p : Nat) : Except Raise (Instr × Nat) := do
  let (e, q) ← readBits st (lengthExtra s) p
  let ((d, x), r) ← readDistance t start st q
  return (matchInstr s e d x, r)

/-- Data element (43 R251): a symbol past 287 is past the alphabet and is invalid as 43 R251 says of every `s` from
286 on (log 18). -/
def decodeData (tLit tDist : HuffTable) (st : Stream) (p : Nat) : Except Raise (Instr × Nat) := do
  let (s, q) ← huffDecode tLit st p
  if s ≤ 255 then return (.lit (BitVec.ofNat 8 s), q)
  else if s = 256 then return (.eob, q)
  else if s ≤ 285 then decodeMatch tDist s p st q
  else if s = 286 then return (.litlenInvalid286, q)
  else if s = 287 then return (.litlenInvalid287, q)
  else .error (.error .invalidLitlenSymbol p s)

/-- The distance field inside a match whose length part has been read (30 R98, log 11). `start` is the element
start. -/
def decodeDistanceField (t : HuffTable) (start : Nat) (st : Stream) (p : Nat) : Except Raise (Instr × Nat) := do
  let ((d, x), q) ← readDistance t start st p
  return (distanceInstr d x, q)

/-- The element DSTATE selects (43 R241), read from position `p`, with the position after it. `start` is the element
start, which differs from `p` only inside a match. -/
def decodeElement (c : DecodeCtx) (start : Nat) (st : Stream) (p : Nat) : Except Raise (Instr × Nat) :=
  match c.dstate with
  | .none => .error (.outside .noElement)
  | .raw => decodeRawByte c.outFull st p
  | .blkHdr => decodeBlockHeader st p
  | .storedHdr => decodeStoredHdr st p
  | .storedData => decodeStoredByte st p
  | .dynCounts => decodeDynCounts st p
  | .dynCllen => decodeDynCllen c.hclen st p
  | .dynLens => decodeClSymbol c.tCl c.lidx st p
  | .huffData =>
    if c.inMatch then decodeDistanceField c.tDist start st p else decodeData c.tLit c.tDist st p

/-! ## The encoder -/

/-- An encoded instruction: a CMD word, or stream bits in stream order (30, introduction). -/
inductive Encoded where
  | command (w : Word)
  | bits (bs : List Bool)
deriving DecidableEq, Repr

/-- A fixed-width field, first stream bit = bit 0 of the value (30 R91). -/
def fieldBits : Nat → Nat → List Bool
  | 0, _ => []
  | n + 1, v => (v % 2 == 1) :: fieldBits n (v / 2)

/-- A Huffman code of `n` bits, most significant bit first (30 R91). -/
def codeBits (n v : Nat) : List Bool := (fieldBits n v).reverse

/-- The code of symbol `s` in table `t` (41 R175). -/
def symbolBits (t : HuffTable) (s : Nat) : List Bool := codeBits (t.lenAt s) (codeOf t s)

/-- The padding up to the next byte boundary; its bits are ignored by the decoder (43 R244), and written as 0. -/
def padBits (p : Nat) : List Bool := List.replicate (alignByte p - p) false

/-- A match of length symbol `s` (30 R98). -/
def matchBits (c : DecodeCtx) (s e d x : Nat) : List Bool :=
  symbolBits c.tLit s ++ fieldBits (lengthExtra s) e ++ symbolBits c.tDist d ++ fieldBits (distanceExtra d) x

/-- A distance field (30 R98). -/
def distanceBits (c : DecodeCtx) (d x : Nat) : List Bool := symbolBits c.tDist d ++ fieldBits (distanceExtra d) x

/-- The encoding of an instruction at stream position `p` (30 R90-R98, R107-R110), LSB-first order. What the
decoder does not read (log 20, log 21) is not written. -/
def encode (c : DecodeCtx) (p : Nat) : Instr → Encoded
  | .nop => .command 0x00
  | .openSession => .command 0x01
  | .closeSession => .command 0x02
  | .startEntry => .command 0x03
  | .appendInput => .command 0x04
  | .illegalOpcode op => .command (op.setWidth 32)
  | .blockStored f => .bits [f, false, false]
  | .blockFixed f => .bits [f, true, false]
  | .blockDynamic f => .bits [f, false, true]
  | .blockReserved f => .bits [f, true, true]
  | .storedHdr len nlen => .bits (padBits p ++ fieldBits 16 len.toNat ++ fieldBits 16 nlen.toNat)
  | .storedByte b => .bits (padBits p ++ fieldBits 8 b.toNat)
  | .dynCounts l d h => .bits (fieldBits 5 l.toNat ++ fieldBits 5 d.toNat ++ fieldBits 4 h.toNat)
  | .dynCllen ls => .bits (ls.flatMap (fun l => fieldBits 3 l.toNat))
  | .clLen n => .bits (symbolBits c.tCl n.toNat)
  | .clRepeatPrev r => .bits (symbolBits c.tCl 16 ++ (if c.lidx = 0 then [] else fieldBits 2 r.toNat))
  | .clRepeatZeroShort r => .bits (symbolBits c.tCl 17 ++ fieldBits 3 r.toNat)
  | .clRepeatZeroLong r => .bits (symbolBits c.tCl 18 ++ fieldBits 7 r.toNat)
  | .lit b => .bits (symbolBits c.tLit b.toNat)
  | .eob => .bits (symbolBits c.tLit 256)
  | .matchL257 d x => .bits (matchBits c 257 0 d.toNat x.toNat)
  | .matchL258 d x => .bits (matchBits c 258 0 d.toNat x.toNat)
  | .matchL259 d x => .bits (matchBits c 259 0 d.toNat x.toNat)
  | .matchL260 d x => .bits (matchBits c 260 0 d.toNat x.toNat)
  | .matchL261 d x => .bits (matchBits c 261 0 d.toNat x.toNat)
  | .matchL262 d x => .bits (matchBits c 262 0 d.toNat x.toNat)
  | .matchL263 d x => .bits (matchBits c 263 0 d.toNat x.toNat)
  | .matchL264 d x => .bits (matchBits c 264 0 d.toNat x.toNat)
  | .matchL265 e d x => .bits (matchBits c 265 e.toNat d.toNat x.toNat)
  | .matchL266 e d x => .bits (matchBits c 266 e.toNat d.toNat x.toNat)
  | .matchL267 e d x => .bits (matchBits c 267 e.toNat d.toNat x.toNat)
  | .matchL268 e d x => .bits (matchBits c 268 e.toNat d.toNat x.toNat)
  | .matchL269 e d x => .bits (matchBits c 269 e.toNat d.toNat x.toNat)
  | .matchL270 e d x => .bits (matchBits c 270 e.toNat d.toNat x.toNat)
  | .matchL271 e d x => .bits (matchBits c 271 e.toNat d.toNat x.toNat)
  | .matchL272 e d x => .bits (matchBits c 272 e.toNat d.toNat x.toNat)
  | .matchL273 e d x => .bits (matchBits c 273 e.toNat d.toNat x.toNat)
  | .matchL274 e d x => .bits (matchBits c 274 e.toNat d.toNat x.toNat)
  | .matchL275 e d x => .bits (matchBits c 275 e.toNat d.toNat x.toNat)
  | .matchL276 e d x => .bits (matchBits c 276 e.toNat d.toNat x.toNat)
  | .matchL277 e d x => .bits (matchBits c 277 e.toNat d.toNat x.toNat)
  | .matchL278 e d x => .bits (matchBits c 278 e.toNat d.toNat x.toNat)
  | .matchL279 e d x => .bits (matchBits c 279 e.toNat d.toNat x.toNat)
  | .matchL280 e d x => .bits (matchBits c 280 e.toNat d.toNat x.toNat)
  | .matchL281 e d x => .bits (matchBits c 281 e.toNat d.toNat x.toNat)
  | .matchL282 e d x => .bits (matchBits c 282 e.toNat d.toNat x.toNat)
  | .matchL283 e d x => .bits (matchBits c 283 e.toNat d.toNat x.toNat)
  | .matchL284 e d x => .bits (matchBits c 284 e.toNat d.toNat x.toNat)
  | .matchL285 d x => .bits (matchBits c 285 0 d.toNat x.toNat)
  | .litlenInvalid286 => .bits (symbolBits c.tLit 286)
  | .litlenInvalid287 => .bits (symbolBits c.tLit 287)
  | .dist0 => .bits (distanceBits c 0 0)
  | .dist1 => .bits (distanceBits c 1 0)
  | .dist2 => .bits (distanceBits c 2 0)
  | .dist3 => .bits (distanceBits c 3 0)
  | .dist4 x => .bits (distanceBits c 4 x.toNat)
  | .dist5 x => .bits (distanceBits c 5 x.toNat)
  | .dist6 x => .bits (distanceBits c 6 x.toNat)
  | .dist7 x => .bits (distanceBits c 7 x.toNat)
  | .dist8 x => .bits (distanceBits c 8 x.toNat)
  | .dist9 x => .bits (distanceBits c 9 x.toNat)
  | .dist10 x => .bits (distanceBits c 10 x.toNat)
  | .dist11 x => .bits (distanceBits c 11 x.toNat)
  | .dist12 x => .bits (distanceBits c 12 x.toNat)
  | .dist13 x => .bits (distanceBits c 13 x.toNat)
  | .dist14 x => .bits (distanceBits c 14 x.toNat)
  | .dist15 x => .bits (distanceBits c 15 x.toNat)
  | .dist16 x => .bits (distanceBits c 16 x.toNat)
  | .dist17 x => .bits (distanceBits c 17 x.toNat)
  | .dist18 x => .bits (distanceBits c 18 x.toNat)
  | .dist19 x => .bits (distanceBits c 19 x.toNat)
  | .dist20 x => .bits (distanceBits c 20 x.toNat)
  | .dist21 x => .bits (distanceBits c 21 x.toNat)
  | .dist22 x => .bits (distanceBits c 22 x.toNat)
  | .dist23 x => .bits (distanceBits c 23 x.toNat)
  | .dist24 x => .bits (distanceBits c 24 x.toNat)
  | .dist25 x => .bits (distanceBits c 25 x.toNat)
  | .dist26 x => .bits (distanceBits c 26 x.toNat)
  | .dist27 x => .bits (distanceBits c 27 x.toNat)
  | .dist28 x => .bits (distanceBits c 28 x.toNat)
  | .dist29 x => .bits (distanceBits c 29 x.toNat)
  | .distInvalid30 => .bits (distanceBits c 30 0)
  | .distInvalid31 => .bits (distanceBits c 31 0)
  | .rawByte b => .bits (if c.outFull then [] else padBits p ++ fieldBits 8 b.toNat)

end Sys2Proof
end

