-- ==== Sys2Proof/Machine/HostPort.lean ====
section
/-! DEFINITION. The host's register and memory accesses (10 R22, 20 R60-R62, 44 R309-R311, 70 R390-R393), and hardware
reset. A refused access sets the refusal mark and does nothing else (70, before R390; log 6). -/

namespace Sys2Proof.Machine

/-- Setting the refusal mark; the first reason is kept (70, before R390; log 6). -/
def refuseAccess (why : Forbidden) (s : State) : State :=
  { s with refusalMark := s.refusalMark.or (some why) }

/-- Handing a value to the host (log 16). -/
def answerHost (v : Word) (s : State) : State := { s with hostData := v }

/-- A register's value, by word index (10 R22). -/
def registerValue (s : State) (index : Nat) : Word :=
  match index with
  | 1 => statusWord s
  | 2 => s.errcode.setWidth 32
  | 3 => s.errpos
  | 4 => s.erraux
  | 5 => s.arg0
  | 6 => s.arg1
  | 7 => s.arg2
  | 8 => methodWord s
  | 9 => s.csize
  | 10 => s.usize
  | 11 => s.inRecv
  | 12 => s.pos
  | 13 => s.outPtr
  | 14 => s.progFile
  | 15 => s.progTotal.extractLsb' 0 32
  | 16 => s.progTotal.extractLsb' 32 32
  | 17 => s.filesDone
  | 18 => BitVec.ofNat 32 (histCount s)
  | 19 => BitVec.ofNat 32 (histBytes s)
  | 20 => BitVec.ofNat 32 (histBytes s / 2 ^ 32)
  | _ => 0

/-- A host write to a register other than CMD, by word index: ARG0..ARG2 store the word, every other write is ignored
(10 R22, 44 R311). -/
def writeRegister (index : Nat) (w : Word) (s : State) : State :=
  match index with
  | 5 => { s with arg0 := w }
  | 6 => { s with arg1 := w }
  | 7 => { s with arg2 := w }
  | _ => s

/-- Why a register access is refused, if it is (70 R392). -/
def registerForbidden (offset size : Nat) : Option Forbidden :=
  if size ≠ 4 ∨ offset % 4 ≠ 0 then some .partialRegister
  else if 256 ≤ offset then some .registerOffset
  else none

/-- A host read of a register (44 R311). -/
def readRegister (offset size : Nat) (s : State) : State :=
  match registerForbidden offset size with
  | some why => refuseAccess why s
  | none => answerHost (registerValue s (offset / 4)) s

/-- Why a host write to IN is refused, if it is (20 R61, 70 R390, R392). -/
def inWriteForbidden (a : Nat) (s : State) : Option Forbidden :=
  if s.cfg.inCap ≤ a then some .inAddress
  else if appendLegal s.state ∧ s.inRecv.toNat ≤ a ∧ a < s.csize.toNat then none
  else some .inImmutable

/-- A host write to IN (44 R310). -/
def writeIn (a : Nat) (b : Byte) (s : State) : State :=
  match inWriteForbidden a s with
  | some why => refuseAccess why s
  | none => { s with inp := s.inp.write a b }

/-- A host read of OUT (44 R309): the entry's byte in DONE below USIZE, elsewhere a free value (93 U3, log 5). -/
def readOut (a : Nat) (s : State) : State :=
  if s.cfg.outCap ≤ a then refuseAccess .outAddress s
  else if s.state = .done ∧ a < s.usize.toNat then answerHost ((outByte s a).setWidth 32) s
  else { answerHost ((Config.freeOutRead s.freeReads).setWidth 32) s with freeReads := s.freeReads + 1 }

/-- A host write to OUT, which is refused (20 R62, 70 R392). -/
def writeOut (a : Nat) (_b : Byte) (s : State) : State :=
  if s.cfg.outCap ≤ a then refuseAccess .outAddress s else refuseAccess .outWrite s

end Sys2Proof.Machine
end

