-- ==== Sys2Proof/Machine/Fetch.lean ====
section
/-! DEFINITION. What the next turn is, and which instruction it runs: a command word the host writes to CMD (44 R300),
or the element the engine decodes at the cursor (43 R241). -/

namespace Sys2Proof.Machine

/-- What a turn comes to: an instruction to run in a state, or an outcome already reached (a host access, a raise while
an element is read, a turn in which nothing is enabled). -/
inductive Work where
  | run (i : Instr) (s : State)
  | settled (o : Host.Outcome State Fault Refusal)

/-- What selects the next element (10 R28, log 11). -/
def decodeCtx (s : State) : DecodeCtx :=
  { dstate := s.dstate
    inMatch := s.mlen ≠ 0
    hclen := s.hclen.toNat
    lidx := s.lidx.toNat
    outFull := s.usize.toNat ≤ s.outPtr.toNat
    tCl := s.tCl
    tLit := s.tLit
    tDist := s.tDist }

/-- Where the next bit is read: at the cursor, or inside a match whose length part has been read (log 10, log 11). -/
def readPosition (s : State) : Nat := if s.mlen = 0 then s.pos.toNat else s.npos.toNat

/-- The element at the cursor, with the position after it. -/
def fetchElement (s : State) : Except Raise (Instr × Nat) :=
  decodeElement (decodeCtx s) s.pos.toNat (streamOf s) (readPosition s)

/-- The engine's turn (43 R241): a step in RUN, nothing in any other state (10 R27). -/
def engineWork (s : State) : Work :=
  if s.state = .run then
    match fetchElement s with
    | .ok (i, q) => .run i { s with npos := BitVec.ofNat 32 q }
    | .error r => .settled (takeRaise r s)
  else .settled (.next s)

/-- A host register write (44 R311): to CMD, it issues a command. -/
def registerWriteWork (offset size : Nat) (w : Word) (s : State) : Work :=
  match registerForbidden offset size with
  | some why => .settled (.next (refuseAccess why s))
  | none => if offset = 0 then .run (decodeCommand w) s else .settled (.next (writeRegister (offset / 4) w s))

/-- One turn, taken off the schedule. -/
def turnWork (t : Turn) (s : State) : Work :=
  match t with
  | .engine => engineWork s
  | .hardReset => .settled (.next (hardReset s))
  | .regWrite offset size w => registerWriteWork offset size w s
  | .regRead offset size => .settled (.next (readRegister offset size s))
  | .inWrite a b => .settled (.next (writeIn a b s))
  | .outRead a => .settled (.next (readOut a s))
  | .outWrite a b => .settled (.next (writeOut a b s))

/-- The next turn: the first of the schedule, or the engine's when the host has none left (log 1). -/
def nextWork (s : State) : Work :=
  match s.sched with
  | [] => engineWork s
  | t :: rest => turnWork t { s with sched := rest }

/-- The turn in which the host writes an opcode-table word to CMD. -/
def commandTurn (nbits w : Nat) : Turn := .regWrite 0 4 (BitVec.ofNat 32 (w % 2 ^ nbits))

end Sys2Proof.Machine
end

