-- ==== Sys2Proof/Machine/Step.lean ====
section
/-! DEFINITION. One step: the next turn, and the instruction it runs. -/

namespace Sys2Proof.Machine

/-- One atomic event of the block (20 R70). -/
def step (s : State) : Host.Outcome State Fault Refusal :=
  match nextWork s with
  | .run i t => exec i t
  | .settled o => o

/-- The state whose next turn is the host's write of the table word to CMD (log 1). -/
def State.withFetchWord (s : State) (nbits w : Nat) : State :=
  { s with sched := commandTurn nbits w :: s.sched }

end Sys2Proof.Machine
end

