-- ==== Sys2Proof/Safety.lean ====
section
/-! DEFINITION. The terms the claims use: which rows are commands, matches and distance fields; when a stream carries
an encoding; the invariant of the machine (44 R314 and the ranges of 10); and the state that no rule reads. -/

namespace Sys2Proof

open Machine

/-- The rows that are CMD words (30 R108). -/
def Instr.isCommand : Instr → Bool
  | .nop => true
  | .openSession => true
  | .closeSession => true
  | .startEntry => true
  | .appendInput => true
  | .illegalOpcode _ => true
  | .blockStored _ => false
  | .blockFixed _ => false
  | .blockDynamic _ => false
  | .blockReserved _ => false
  | .storedHdr _ _ => false
  | .storedByte _ => false
  | .dynCounts _ _ _ => false
  | .dynCllen _ => false
  | .clLen _ => false
  | .clRepeatPrev _ => false
  | .clRepeatZeroShort _ => false
  | .clRepeatZeroLong _ => false
  | .lit _ => false
  | .eob => false
  | .matchL257 _ _ => false
  | .matchL258 _ _ => false
  | .matchL259 _ _ => false
  | .matchL260 _ _ => false
  | .matchL261 _ _ => false
  | .matchL262 _ _ => false
  | .matchL263 _ _ => false
  | .matchL264 _ _ => false
  | .matchL265 _ _ _ => false
  | .matchL266 _ _ _ => false
  | .matchL267 _ _ _ => false
  | .matchL268 _ _ _ => false
  | .matchL269 _ _ _ => false
  | .matchL270 _ _ _ => false
  | .matchL271 _ _ _ => false
  | .matchL272 _ _ _ => false
  | .matchL273 _ _ _ => false
  | .matchL274 _ _ _ => false
  | .matchL275 _ _ _ => false
  | .matchL276 _ _ _ => false
  | .matchL277 _ _ _ => false
  | .matchL278 _ _ _ => false
  | .matchL279 _ _ _ => false
  | .matchL280 _ _ _ => false
  | .matchL281 _ _ _ => false
  | .matchL282 _ _ _ => false
  | .matchL283 _ _ _ => false
  | .matchL284 _ _ _ => false
  | .matchL285 _ _ => false
  | .litlenInvalid286 => false
  | .litlenInvalid287 => false
  | .dist0 => false
  | .dist1 => false
  | .dist2 => false
  | .dist3 => false
  | .dist4 _ => false
  | .dist5 _ => false
  | .dist6 _ => false
  | .dist7 _ => false
  | .dist8 _ => false
  | .dist9 _ => false
  | .dist10 _ => false
  | .dist11 _ => false
  | .dist12 _ => false
  | .dist13 _ => false
  | .dist14 _ => false
  | .dist15 _ => false
  | .dist16 _ => false
  | .dist17 _ => false
  | .dist18 _ => false
  | .dist19 _ => false
  | .dist20 _ => false
  | .dist21 _ => false
  | .dist22 _ => false
  | .dist23 _ => false
  | .dist24 _ => false
  | .dist25 _ => false
  | .dist26 _ => false
  | .dist27 _ => false
  | .dist28 _ => false
  | .dist29 _ => false
  | .distInvalid30 => false
  | .distInvalid31 => false
  | .rawByte _ => false

/-- A match row's length symbol, length extra value, distance symbol and distance extra value (30 R98). -/
def Instr.matchFields : Instr → Option (Nat × Nat × Nat × Nat)
  | .nop => none
  | .openSession => none
  | .closeSession => none
  | .startEntry => none
  | .appendInput => none
  | .illegalOpcode _ => none
  | .blockStored _ => none
  | .blockFixed _ => none
  | .blockDynamic _ => none
  | .blockReserved _ => none
  | .storedHdr _ _ => none
  | .storedByte _ => none
  | .dynCounts _ _ _ => none
  | .dynCllen _ => none
  | .clLen _ => none
  | .clRepeatPrev _ => none
  | .clRepeatZeroShort _ => none
  | .clRepeatZeroLong _ => none
  | .lit _ => none
  | .eob => none
  | .matchL257 d x => some (257, 0, d.toNat, x.toNat)
  | .matchL258 d x => some (258, 0, d.toNat, x.toNat)
  | .matchL259 d x => some (259, 0, d.toNat, x.toNat)
  | .matchL260 d x => some (260, 0, d.toNat, x.toNat)
  | .matchL261 d x => some (261, 0, d.toNat, x.toNat)
  | .matchL262 d x => some (262, 0, d.toNat, x.toNat)
  | .matchL263 d x => some (263, 0, d.toNat, x.toNat)
  | .matchL264 d x => some (264, 0, d.toNat, x.toNat)
  | .matchL265 e d x => some (265, e.toNat, d.toNat, x.toNat)
  | .matchL266 e d x => some (266, e.toNat, d.toNat, x.toNat)
  | .matchL267 e d x => some (267, e.toNat, d.toNat, x.toNat)
  | .matchL268 e d x => some (268, e.toNat, d.toNat, x.toNat)
  | .matchL269 e d x => some (269, e.toNat, d.toNat, x.toNat)
  | .matchL270 e d x => some (270, e.toNat, d.toNat, x.toNat)
  | .matchL271 e d x => some (271, e.toNat, d.toNat, x.toNat)
  | .matchL272 e d x => some (272, e.toNat, d.toNat, x.toNat)
  | .matchL273 e d x => some (273, e.toNat, d.toNat, x.toNat)
  | .matchL274 e d x => some (274, e.toNat, d.toNat, x.toNat)
  | .matchL275 e d x => some (275, e.toNat, d.toNat, x.toNat)
  | .matchL276 e d x => some (276, e.toNat, d.toNat, x.toNat)
  | .matchL277 e d x => some (277, e.toNat, d.toNat, x.toNat)
  | .matchL278 e d x => some (278, e.toNat, d.toNat, x.toNat)
  | .matchL279 e d x => some (279, e.toNat, d.toNat, x.toNat)
  | .matchL280 e d x => some (280, e.toNat, d.toNat, x.toNat)
  | .matchL281 e d x => some (281, e.toNat, d.toNat, x.toNat)
  | .matchL282 e d x => some (282, e.toNat, d.toNat, x.toNat)
  | .matchL283 e d x => some (283, e.toNat, d.toNat, x.toNat)
  | .matchL284 e d x => some (284, e.toNat, d.toNat, x.toNat)
  | .matchL285 d x => some (285, 0, d.toNat, x.toNat)
  | .litlenInvalid286 => none
  | .litlenInvalid287 => none
  | .dist0 => none
  | .dist1 => none
  | .dist2 => none
  | .dist3 => none
  | .dist4 _ => none
  | .dist5 _ => none
  | .dist6 _ => none
  | .dist7 _ => none
  | .dist8 _ => none
  | .dist9 _ => none
  | .dist10 _ => none
  | .dist11 _ => none
  | .dist12 _ => none
  | .dist13 _ => none
  | .dist14 _ => none
  | .dist15 _ => none
  | .dist16 _ => none
  | .dist17 _ => none
  | .dist18 _ => none
  | .dist19 _ => none
  | .dist20 _ => none
  | .dist21 _ => none
  | .dist22 _ => none
  | .dist23 _ => none
  | .dist24 _ => none
  | .dist25 _ => none
  | .dist26 _ => none
  | .dist27 _ => none
  | .dist28 _ => none
  | .dist29 _ => none
  | .distInvalid30 => none
  | .distInvalid31 => none
  | .rawByte _ => none

/-- A distance row's symbol and extra value (30 R98). -/
def Instr.distanceFields : Instr → Option (Nat × Nat)
  | .nop => none
  | .openSession => none
  | .closeSession => none
  | .startEntry => none
  | .appendInput => none
  | .illegalOpcode _ => none
  | .blockStored _ => none
  | .blockFixed _ => none
  | .blockDynamic _ => none
  | .blockReserved _ => none
  | .storedHdr _ _ => none
  | .storedByte _ => none
  | .dynCounts _ _ _ => none
  | .dynCllen _ => none
  | .clLen _ => none
  | .clRepeatPrev _ => none
  | .clRepeatZeroShort _ => none
  | .clRepeatZeroLong _ => none
  | .lit _ => none
  | .eob => none
  | .matchL257 _ _ => none
  | .matchL258 _ _ => none
  | .matchL259 _ _ => none
  | .matchL260 _ _ => none
  | .matchL261 _ _ => none
  | .matchL262 _ _ => none
  | .matchL263 _ _ => none
  | .matchL264 _ _ => none
  | .matchL265 _ _ _ => none
  | .matchL266 _ _ _ => none
  | .matchL267 _ _ _ => none
  | .matchL268 _ _ _ => none
  | .matchL269 _ _ _ => none
  | .matchL270 _ _ _ => none
  | .matchL271 _ _ _ => none
  | .matchL272 _ _ _ => none
  | .matchL273 _ _ _ => none
  | .matchL274 _ _ _ => none
  | .matchL275 _ _ _ => none
  | .matchL276 _ _ _ => none
  | .matchL277 _ _ _ => none
  | .matchL278 _ _ _ => none
  | .matchL279 _ _ _ => none
  | .matchL280 _ _ _ => none
  | .matchL281 _ _ _ => none
  | .matchL282 _ _ _ => none
  | .matchL283 _ _ _ => none
  | .matchL284 _ _ _ => none
  | .matchL285 _ _ => none
  | .litlenInvalid286 => none
  | .litlenInvalid287 => none
  | .dist0 => some (0, 0)
  | .dist1 => some (1, 0)
  | .dist2 => some (2, 0)
  | .dist3 => some (3, 0)
  | .dist4 x => some (4, x.toNat)
  | .dist5 x => some (5, x.toNat)
  | .dist6 x => some (6, x.toNat)
  | .dist7 x => some (7, x.toNat)
  | .dist8 x => some (8, x.toNat)
  | .dist9 x => some (9, x.toNat)
  | .dist10 x => some (10, x.toNat)
  | .dist11 x => some (11, x.toNat)
  | .dist12 x => some (12, x.toNat)
  | .dist13 x => some (13, x.toNat)
  | .dist14 x => some (14, x.toNat)
  | .dist15 x => some (15, x.toNat)
  | .dist16 x => some (16, x.toNat)
  | .dist17 x => some (17, x.toNat)
  | .dist18 x => some (18, x.toNat)
  | .dist19 x => some (19, x.toNat)
  | .dist20 x => some (20, x.toNat)
  | .dist21 x => some (21, x.toNat)
  | .dist22 x => some (22, x.toNat)
  | .dist23 x => some (23, x.toNat)
  | .dist24 x => some (24, x.toNat)
  | .dist25 x => some (25, x.toNat)
  | .dist26 x => some (26, x.toNat)
  | .dist27 x => some (27, x.toNat)
  | .dist28 x => some (28, x.toNat)
  | .dist29 x => some (29, x.toNat)
  | .distInvalid30 => some (30, 0)
  | .distInvalid31 => some (31, 0)
  | .rawByte _ => none

/-- The context selects this element (10 R28), and the symbols it uses have codes (41 R175). Commands are no
elements. -/
def Instr.fits (c : DecodeCtx) : Instr → Prop
  | .nop => False
  | .openSession => False
  | .closeSession => False
  | .startEntry => False
  | .appendInput => False
  | .illegalOpcode _ => False
  | .blockStored _ => c.dstate = .blkHdr
  | .blockFixed _ => c.dstate = .blkHdr
  | .blockDynamic _ => c.dstate = .blkHdr
  | .blockReserved _ => c.dstate = .blkHdr
  | .storedHdr _ _ => c.dstate = .storedHdr
  | .storedByte _ => c.dstate = .storedData
  | .dynCounts _ _ _ => c.dstate = .dynCounts
  | .dynCllen ls => c.dstate = .dynCllen ∧ ls.length = c.hclen
  | .clLen n => c.dstate = .dynLens ∧ c.tCl.lenAt n.toNat ≠ 0
  | .clRepeatPrev r => c.dstate = .dynLens ∧ c.tCl.lenAt 16 ≠ 0 ∧ (c.lidx = 0 → r = 0)
  | .clRepeatZeroShort _ => c.dstate = .dynLens ∧ c.tCl.lenAt 17 ≠ 0
  | .clRepeatZeroLong _ => c.dstate = .dynLens ∧ c.tCl.lenAt 18 ≠ 0
  | .lit b => c.dstate = .huffData ∧ c.inMatch = false ∧ c.tLit.lenAt b.toNat ≠ 0
  | .eob => c.dstate = .huffData ∧ c.inMatch = false ∧ c.tLit.lenAt 256 ≠ 0
  | .matchL257 d _ => c.dstate = .huffData ∧ c.inMatch = false ∧ c.tLit.lenAt 257 ≠ 0 ∧ c.tDist.lenAt d.toNat ≠ 0
  | .matchL258 d _ => c.dstate = .huffData ∧ c.inMatch = false ∧ c.tLit.lenAt 258 ≠ 0 ∧ c.tDist.lenAt d.toNat ≠ 0
  | .matchL259 d _ => c.dstate = .huffData ∧ c.inMatch = false ∧ c.tLit.lenAt 259 ≠ 0 ∧ c.tDist.lenAt d.toNat ≠ 0
  | .matchL260 d _ => c.dstate = .huffData ∧ c.inMatch = false ∧ c.tLit.lenAt 260 ≠ 0 ∧ c.tDist.lenAt d.toNat ≠ 0
  | .matchL261 d _ => c.dstate = .huffData ∧ c.inMatch = false ∧ c.tLit.lenAt 261 ≠ 0 ∧ c.tDist.lenAt d.toNat ≠ 0
  | .matchL262 d _ => c.dstate = .huffData ∧ c.inMatch = false ∧ c.tLit.lenAt 262 ≠ 0 ∧ c.tDist.lenAt d.toNat ≠ 0
  | .matchL263 d _ => c.dstate = .huffData ∧ c.inMatch = false ∧ c.tLit.lenAt 263 ≠ 0 ∧ c.tDist.lenAt d.toNat ≠ 0
  | .matchL264 d _ => c.dstate = .huffData ∧ c.inMatch = false ∧ c.tLit.lenAt 264 ≠ 0 ∧ c.tDist.lenAt d.toNat ≠ 0
  | .matchL265 _ d _ => c.dstate = .huffData ∧ c.inMatch = false ∧ c.tLit.lenAt 265 ≠ 0 ∧ c.tDist.lenAt d.toNat ≠ 0
  | .matchL266 _ d _ => c.dstate = .huffData ∧ c.inMatch = false ∧ c.tLit.lenAt 266 ≠ 0 ∧ c.tDist.lenAt d.toNat ≠ 0
  | .matchL267 _ d _ => c.dstate = .huffData ∧ c.inMatch = false ∧ c.tLit.lenAt 267 ≠ 0 ∧ c.tDist.lenAt d.toNat ≠ 0
  | .matchL268 _ d _ => c.dstate = .huffData ∧ c.inMatch = false ∧ c.tLit.lenAt 268 ≠ 0 ∧ c.tDist.lenAt d.toNat ≠ 0
  | .matchL269 _ d _ => c.dstate = .huffData ∧ c.inMatch = false ∧ c.tLit.lenAt 269 ≠ 0 ∧ c.tDist.lenAt d.toNat ≠ 0
  | .matchL270 _ d _ => c.dstate = .huffData ∧ c.inMatch = false ∧ c.tLit.lenAt 270 ≠ 0 ∧ c.tDist.lenAt d.toNat ≠ 0
  | .matchL271 _ d _ => c.dstate = .huffData ∧ c.inMatch = false ∧ c.tLit.lenAt 271 ≠ 0 ∧ c.tDist.lenAt d.toNat ≠ 0
  | .matchL272 _ d _ => c.dstate = .huffData ∧ c.inMatch = false ∧ c.tLit.lenAt 272 ≠ 0 ∧ c.tDist.lenAt d.toNat ≠ 0
  | .matchL273 _ d _ => c.dstate = .huffData ∧ c.inMatch = false ∧ c.tLit.lenAt 273 ≠ 0 ∧ c.tDist.lenAt d.toNat ≠ 0
  | .matchL274 _ d _ => c.dstate = .huffData ∧ c.inMatch = false ∧ c.tLit.lenAt 274 ≠ 0 ∧ c.tDist.lenAt d.toNat ≠ 0
  | .matchL275 _ d _ => c.dstate = .huffData ∧ c.inMatch = false ∧ c.tLit.lenAt 275 ≠ 0 ∧ c.tDist.lenAt d.toNat ≠ 0
  | .matchL276 _ d _ => c.dstate = .huffData ∧ c.inMatch = false ∧ c.tLit.lenAt 276 ≠ 0 ∧ c.tDist.lenAt d.toNat ≠ 0
  | .matchL277 _ d _ => c.dstate = .huffData ∧ c.inMatch = false ∧ c.tLit.lenAt 277 ≠ 0 ∧ c.tDist.lenAt d.toNat ≠ 0
  | .matchL278 _ d _ => c.dstate = .huffData ∧ c.inMatch = false ∧ c.tLit.lenAt 278 ≠ 0 ∧ c.tDist.lenAt d.toNat ≠ 0
  | .matchL279 _ d _ => c.dstate = .huffData ∧ c.inMatch = false ∧ c.tLit.lenAt 279 ≠ 0 ∧ c.tDist.lenAt d.toNat ≠ 0
  | .matchL280 _ d _ => c.dstate = .huffData ∧ c.inMatch = false ∧ c.tLit.lenAt 280 ≠ 0 ∧ c.tDist.lenAt d.toNat ≠ 0
  | .matchL281 _ d _ => c.dstate = .huffData ∧ c.inMatch = false ∧ c.tLit.lenAt 281 ≠ 0 ∧ c.tDist.lenAt d.toNat ≠ 0
  | .matchL282 _ d _ => c.dstate = .huffData ∧ c.inMatch = false ∧ c.tLit.lenAt 282 ≠ 0 ∧ c.tDist.lenAt d.toNat ≠ 0
  | .matchL283 _ d _ => c.dstate = .huffData ∧ c.inMatch = false ∧ c.tLit.lenAt 283 ≠ 0 ∧ c.tDist.lenAt d.toNat ≠ 0
  | .matchL284 _ d _ => c.dstate = .huffData ∧ c.inMatch = false ∧ c.tLit.lenAt 284 ≠ 0 ∧ c.tDist.lenAt d.toNat ≠ 0
  | .matchL285 d _ => c.dstate = .huffData ∧ c.inMatch = false ∧ c.tLit.lenAt 285 ≠ 0 ∧ c.tDist.lenAt d.toNat ≠ 0
  | .litlenInvalid286 => c.dstate = .huffData ∧ c.inMatch = false ∧ c.tLit.lenAt 286 ≠ 0
  | .litlenInvalid287 => c.dstate = .huffData ∧ c.inMatch = false ∧ c.tLit.lenAt 287 ≠ 0
  | .dist0 => c.dstate = .huffData ∧ c.inMatch = true ∧ c.tDist.lenAt 0 ≠ 0
  | .dist1 => c.dstate = .huffData ∧ c.inMatch = true ∧ c.tDist.lenAt 1 ≠ 0
  | .dist2 => c.dstate = .huffData ∧ c.inMatch = true ∧ c.tDist.lenAt 2 ≠ 0
  | .dist3 => c.dstate = .huffData ∧ c.inMatch = true ∧ c.tDist.lenAt 3 ≠ 0
  | .dist4 _ => c.dstate = .huffData ∧ c.inMatch = true ∧ c.tDist.lenAt 4 ≠ 0
  | .dist5 _ => c.dstate = .huffData ∧ c.inMatch = true ∧ c.tDist.lenAt 5 ≠ 0
  | .dist6 _ => c.dstate = .huffData ∧ c.inMatch = true ∧ c.tDist.lenAt 6 ≠ 0
  | .dist7 _ => c.dstate = .huffData ∧ c.inMatch = true ∧ c.tDist.lenAt 7 ≠ 0
  | .dist8 _ => c.dstate = .huffData ∧ c.inMatch = true ∧ c.tDist.lenAt 8 ≠ 0
  | .dist9 _ => c.dstate = .huffData ∧ c.inMatch = true ∧ c.tDist.lenAt 9 ≠ 0
  | .dist10 _ => c.dstate = .huffData ∧ c.inMatch = true ∧ c.tDist.lenAt 10 ≠ 0
  | .dist11 _ => c.dstate = .huffData ∧ c.inMatch = true ∧ c.tDist.lenAt 11 ≠ 0
  | .dist12 _ => c.dstate = .huffData ∧ c.inMatch = true ∧ c.tDist.lenAt 12 ≠ 0
  | .dist13 _ => c.dstate = .huffData ∧ c.inMatch = true ∧ c.tDist.lenAt 13 ≠ 0
  | .dist14 _ => c.dstate = .huffData ∧ c.inMatch = true ∧ c.tDist.lenAt 14 ≠ 0
  | .dist15 _ => c.dstate = .huffData ∧ c.inMatch = true ∧ c.tDist.lenAt 15 ≠ 0
  | .dist16 _ => c.dstate = .huffData ∧ c.inMatch = true ∧ c.tDist.lenAt 16 ≠ 0
  | .dist17 _ => c.dstate = .huffData ∧ c.inMatch = true ∧ c.tDist.lenAt 17 ≠ 0
  | .dist18 _ => c.dstate = .huffData ∧ c.inMatch = true ∧ c.tDist.lenAt 18 ≠ 0
  | .dist19 _ => c.dstate = .huffData ∧ c.inMatch = true ∧ c.tDist.lenAt 19 ≠ 0
  | .dist20 _ => c.dstate = .huffData ∧ c.inMatch = true ∧ c.tDist.lenAt 20 ≠ 0
  | .dist21 _ => c.dstate = .huffData ∧ c.inMatch = true ∧ c.tDist.lenAt 21 ≠ 0
  | .dist22 _ => c.dstate = .huffData ∧ c.inMatch = true ∧ c.tDist.lenAt 22 ≠ 0
  | .dist23 _ => c.dstate = .huffData ∧ c.inMatch = true ∧ c.tDist.lenAt 23 ≠ 0
  | .dist24 _ => c.dstate = .huffData ∧ c.inMatch = true ∧ c.tDist.lenAt 24 ≠ 0
  | .dist25 _ => c.dstate = .huffData ∧ c.inMatch = true ∧ c.tDist.lenAt 25 ≠ 0
  | .dist26 _ => c.dstate = .huffData ∧ c.inMatch = true ∧ c.tDist.lenAt 26 ≠ 0
  | .dist27 _ => c.dstate = .huffData ∧ c.inMatch = true ∧ c.tDist.lenAt 27 ≠ 0
  | .dist28 _ => c.dstate = .huffData ∧ c.inMatch = true ∧ c.tDist.lenAt 28 ≠ 0
  | .dist29 _ => c.dstate = .huffData ∧ c.inMatch = true ∧ c.tDist.lenAt 29 ≠ 0
  | .distInvalid30 => c.dstate = .huffData ∧ c.inMatch = true ∧ c.tDist.lenAt 30 ≠ 0
  | .distInvalid31 => c.dstate = .huffData ∧ c.inMatch = true ∧ c.tDist.lenAt 31 ≠ 0
  | .rawByte b => c.dstate = .raw ∧ (c.outFull = true → b = 0)

/-- These bits stand in the stream from position `p` on, all of them delivered (40 R140, R141). -/
def Delivers (st : Stream) (p : Nat) (bs : List Bool) : Prop :=
  p + bs.length ≤ st.avail ∧ ∀ k, k < bs.length → bitAt st (p + k) = bs.getD k false

/-- The stream carries these bits from position `p` on, delivered, in LSB-first order. -/
def Carries (st : Stream) (p : Nat) (bs : List Bool) : Prop := st.order = .lsb ∧ Delivers st p bs

/-- A table built from `n` lengths of at most `maxLimit` that do not over-subscribe (41 R170-R173). -/
def BuiltFrom (t : HuffTable) (n maxLimit : Nat) : Prop :=
  ∃ lens : List Nat, lens.length = n ∧ (∀ l, l ∈ lens → l ≤ maxLimit) ∧ overSubscribed lens maxLimit = false ∧
    t = tableOf lens maxLimit

end Sys2Proof

namespace Sys2Proof.Machine

/-- Symbols of a table stay inside its alphabet (41 R182, 43 R251). -/
def symbolsBelow (t : HuffTable) (n : Nat) : Prop := ∀ v, v ∈ t.sym → v.toNat < n

/-- The invariant of the machine between two turns. -/
structure Inv (s : State) : Prop where
  /-- the parameters are legal (00 R5) -/
  config : s.cfg.wf = true
  /-- IN and OUT are in their canonical form -/
  memory : s.inp.wf = true ∧ s.out.wf = true
  /-- no element is half read (20 R68) -/
  atomic : s.npos = s.pos ∧ s.mlen = 0
  /-- the bit order of DEFLATE (10 R42) -/
  bitOrder : s.order = .lsb
  /-- the cursor is inside the delivered input (10 R25) -/
  cursor : s.pos.toNat ≤ 8 * s.inRecv.toNat
  /-- IN_RECV, CSIZE, OUT_PTR and USIZE (44 R314) -/
  sizes : s.inRecv.toNat ≤ s.csize.toNat ∧ s.csize.toNat < s.cfg.inCap ∧ s.outPtr.toNat ≤ s.usize.toNat ∧
    s.usize.toNat ≤ s.cfg.outCap
  /-- METHOD is 0 or 8, and only a method-0 entry reads raw bytes (10 R26, 43 R240) -/
  methods : (s.method = 0 ∨ s.method = 8) ∧ (s.state = .run → (s.dstate = .raw ↔ s.method = 0))
  /-- BTYPE 3 is never latched (10 R29) -/
  blockType : s.btype ≠ 3
  /-- ERRCODE and STATE agree (44 R314) -/
  errors : (s.errcode ≠ 0 ↔ s.state = .waiting ∨ s.state = .error) ∧ (s.errcode = underrunCode ↔ s.state = .waiting)
  /-- DSTATE and STATE agree (44 R314) -/
  selection : s.dstate = .none ↔ s.state ≠ .run
  /-- TAINT is set in ERROR (60 R344) -/
  tainted : s.state = .error → s.taint = true
  /-- WAITING only while input is missing (60 R357) -/
  missing : s.state = .waiting → s.inRecv.toNat < s.csize.toNat
  /-- PROG_FILE and OUT_PTR (44 R314) -/
  progress : s.progFile.toNat ≤ s.usize.toNat ∧ (s.state = .run → s.outPtr.toNat ≤ s.progFile.toNat) ∧
    (s.state = .done → s.progFile = s.usize ∧ s.outPtr = s.usize)
  /-- in DONE the newest frozen member is the entry's output (44 R314) -/
  frozen : s.state = .done → s.hist.getLast? = some (outSlice s s.usize.toNat)
  /-- LENS has 316 entries (10 R31) -/
  lengths : s.lens.length = 316
  /-- HLIT, HDIST and HCLEN are in range while they are used (10 R31) -/
  counts : (s.dstate = .dynCllen ∨ s.dstate = .dynLens → 257 ≤ s.hlit.toNat ∧ s.hlit.toNat ≤ 286 ∧ 1 ≤ s.hdist.toNat ∧
      s.hdist.toNat ≤ 30) ∧
    (s.dstate = .dynCllen → 4 ≤ s.hclen.toNat ∧ s.hclen.toNat ≤ 19) ∧
    (s.dstate = .dynLens → s.lidx.toNat < totalLengths s)
  /-- a stored block has bytes left while it is copied, and its bytes are aligned, as a method-0 entry's are
  (43 R245) -/
  stored : (s.dstate = .storedData → s.storedRem ≠ 0) ∧
    (s.dstate = .storedData ∨ s.dstate = .raw → s.pos.toNat % 8 = 0)
  /-- a table is built before it is read (41 R179) -/
  tables : (s.dstate = .dynLens → s.tCl.built = true) ∧
    (s.dstate = .huffData → s.tLit.built = true ∧ s.tDist.built = true)
  /-- every table's symbols are in its alphabet -/
  alphabets : symbolsBelow s.tCl 19 ∧ symbolsBelow s.tLit 288 ∧ symbolsBelow s.tDist 32

/-- Two tables agree: both built and equal, or both not built (10 R32, 93 U6). -/
def sameTable (t u : HuffTable) : Prop := t.built = u.built ∧ (t.built = true → t = u)

/-- Two states agree on everything the spec gives a value: they may differ in OUT at or above OUT_PTR (93 U1), in LENS
at or above LIDX (93 U5) and in tables with built = 0 (93 U6). -/
def SameSpecified (s t : State) : Prop :=
  t = { s with out := t.out, lens := t.lens, tCl := t.tCl, tLit := t.tLit, tDist := t.tDist } ∧
  (∀ a, a < s.outPtr.toNat → outByte t a = outByte s a) ∧
  (∀ k, k < s.lidx.toNat → lensAt t k = lensAt s k) ∧
  sameTable s.tCl t.tCl ∧ sameTable s.tLit t.tLit ∧ sameTable s.tDist t.tDist

/-- The turn a step takes: the schedule's first, or the engine's (log 1). -/
def nextTurn (s : State) : Turn := s.sched.headD .engine

/-- The command word a turn issues, if it issues one (44 R300). -/
def Turn.issues : Turn → Option Word
  | .regWrite offset size w => if registerForbidden offset size = none ∧ offset = 0 then some w else none
  | .engine | .hardReset | .regRead _ _ | .inWrite _ _ | .outRead _ | .outWrite _ _ => none

/-- The turn starts a session or a machine anew: OPEN, CLOSE or a hardware reset. -/
def Turn.startsAnew (t : Turn) : Prop :=
  t = .hardReset ∨ ∃ w, t.issues = some w ∧ (decodeCommand w = .openSession ∨ decodeCommand w = .closeSession)

/-- The turn issues START_ENTRY. -/
def Turn.startsEntry (t : Turn) : Prop := ∃ w, t.issues = some w ∧ decodeCommand w = .startEntry

/-- `t` is `s` after `raise E(at, aux)`: the state before the step with exactly the writes 60 R341 lists (and nothing
half read). -/
def Raised (s t : State) (code : BitVec 8) (at_ aux : Nat) : Prop :=
  t = { s with
    npos := s.pos
    mlen := 0
    errcode := code
    errpos := BitVec.ofNat 32 at_
    erraux := BitVec.ofNat 32 aux
    taint := true
    state := .error
    dstate := .none
    evlog := s.evlog ++ [.error code (BitVec.ofNat 32 at_) (BitVec.ofNat 32 aux)] }

/-- The counters of `t` follow its OUT_PTR from those of `s` (44 R312). -/
def CountersFollow (s t : State) : Prop :=
  t.progFile.toNat = max s.progFile.toNat t.outPtr.toNat ∧
    t.progTotal = s.progTotal + BitVec.ofNat 64 (t.outPtr.toNat - s.progFile.toNat)

/-- OUT of `t` is OUT of `s` but for the `n` bytes from `a` on. -/
def OutSameOutside (s t : State) (a n : Nat) : Prop := ∀ b, b < a ∨ a + n ≤ b → outByte t b = outByte s b

/-- The value and the repeat count a code-length symbol writes in state `s`; none for symbol 16 with no previous length,
and for the rows that are no code-length symbol (41 R182). -/
def lengthRun (s : State) : Instr → Option (BitVec 4 × Nat)
  | .nop => none
  | .openSession => none
  | .closeSession => none
  | .startEntry => none
  | .appendInput => none
  | .illegalOpcode _ => none
  | .blockStored _ => none
  | .blockFixed _ => none
  | .blockDynamic _ => none
  | .blockReserved _ => none
  | .storedHdr _ _ => none
  | .storedByte _ => none
  | .dynCounts _ _ _ => none
  | .dynCllen _ => none
  | .clLen n => some (n, 1)
  | .clRepeatPrev r => if s.lidx = 0 then none else some (lensAt s (s.lidx.toNat - 1), 3 + r.toNat)
  | .clRepeatZeroShort r => some (0, 3 + r.toNat)
  | .clRepeatZeroLong r => some (0, 11 + r.toNat)
  | .lit _ => none
  | .eob => none
  | .matchL257 _ _ => none
  | .matchL258 _ _ => none
  | .matchL259 _ _ => none
  | .matchL260 _ _ => none
  | .matchL261 _ _ => none
  | .matchL262 _ _ => none
  | .matchL263 _ _ => none
  | .matchL264 _ _ => none
  | .matchL265 _ _ _ => none
  | .matchL266 _ _ _ => none
  | .matchL267 _ _ _ => none
  | .matchL268 _ _ _ => none
  | .matchL269 _ _ _ => none
  | .matchL270 _ _ _ => none
  | .matchL271 _ _ _ => none
  | .matchL272 _ _ _ => none
  | .matchL273 _ _ _ => none
  | .matchL274 _ _ _ => none
  | .matchL275 _ _ _ => none
  | .matchL276 _ _ _ => none
  | .matchL277 _ _ _ => none
  | .matchL278 _ _ _ => none
  | .matchL279 _ _ _ => none
  | .matchL280 _ _ _ => none
  | .matchL281 _ _ _ => none
  | .matchL282 _ _ _ => none
  | .matchL283 _ _ _ => none
  | .matchL284 _ _ _ => none
  | .matchL285 _ _ => none
  | .litlenInvalid286 => none
  | .litlenInvalid287 => none
  | .dist0 => none
  | .dist1 => none
  | .dist2 => none
  | .dist3 => none
  | .dist4 _ => none
  | .dist5 _ => none
  | .dist6 _ => none
  | .dist7 _ => none
  | .dist8 _ => none
  | .dist9 _ => none
  | .dist10 _ => none
  | .dist11 _ => none
  | .dist12 _ => none
  | .dist13 _ => none
  | .dist14 _ => none
  | .dist15 _ => none
  | .dist16 _ => none
  | .dist17 _ => none
  | .dist18 _ => none
  | .dist19 _ => none
  | .dist20 _ => none
  | .dist21 _ => none
  | .dist22 _ => none
  | .dist23 _ => none
  | .dist24 _ => none
  | .dist25 _ => none
  | .dist26 _ => none
  | .dist27 _ => none
  | .dist28 _ => none
  | .dist29 _ => none
  | .distInvalid30 => none
  | .distInvalid31 => none
  | .rawByte _ => none

/-- The stream of these bytes, all delivered, LSB-first. -/
def streamOfBytes (bs : List Byte) : Stream :=
  { byteAt := fun a => bs.getD a 0, recv := bs.length, order := .lsb, rarAlign := .skip }

end Sys2Proof.Machine
end

