-- ==== Sys2Proof/Certificates/Slice0/Obligations.lean ====
section
/-! DEFINITION. The statements for the provers. Each docstring cites the rule it formalises. -/

open Sys2Proof Sys2Proof.Machine

/-- A CMD word is decoded by its low byte alone (30_encoding.md section 4 (R107, R108); 44_host_commands.md section 1 (R300)). -/
def Obligations.CommandWordSelectsByLowByte : Prop :=
  ∀ w : Word,
    (w.toNat % 256 = 0 → decodeCommand w = .nop) ∧
    (w.toNat % 256 = 1 → decodeCommand w = .openSession) ∧
    (w.toNat % 256 = 2 → decodeCommand w = .closeSession) ∧
    (w.toNat % 256 = 3 → decodeCommand w = .startEntry) ∧
    (w.toNat % 256 = 4 → decodeCommand w = .appendInput) ∧
    (5 ≤ w.toNat % 256 → decodeCommand w = .illegalOpcode (BitVec.ofNat 8 w.toNat))

/-- Bytes written out from the spec decode to the elements it names (43_inflate.md R242, R244, R247, R251 (examples); 95_test_vectors.md V-L2-E1, V-L2-E7, V-L2-I1, P1). -/
def Obligations.SpecBytesDecode : Prop :=
  decodeBlockHeader (streamOfBytes [0x03]) 0 = .ok (.blockFixed true, 3) ∧
  decodeBlockHeader (streamOfBytes [0x07]) 0 = .ok (.blockReserved true, 3) ∧
  decodeStoredHdr (streamOfBytes [0x01, 0x05, 0x00, 0xFA, 0xFF]) 3 = .ok (.storedHdr 5 0xFFFA, 40) ∧
  decodeDynCounts (streamOfBytes [0xF5, 0x00, 0x00]) 3 = .ok (.dynCounts 30 0 0, 17) ∧
  decodeData tFixLit tFixDist (streamOfBytes [0x4B, 0x4C, 0x02, 0x00]) 3 = .ok (.lit 0x61, 11) ∧
  decodeData tFixLit tFixDist (streamOfBytes [0x73, 0x74, 0x82, 0x40, 0x00]) 19 = .ok (.matchL260 1 0, 31)

/-- Decoding an encoded command gives the command back (30_encoding.md section 4 (R107, R108)). -/
def Obligations.CommandsRoundTrip : Prop :=
  ∀ (c : DecodeCtx) (p : Nat) (i : Instr), i.wf = true → i.isCommand = true →
    ∃ w, encode c p i = .command w ∧ decodeCommand w = i

/-- Elements made of fixed-width fields decode back from their encoding, whatever the skipped bits before a byte boundary hold (30_encoding.md section 1 (R91-R96, R110); 40_bitcursor.md R142, R146, R147; 43_inflate.md R244, R245, R260; 93_implementation_defined.md U21; the row of a full method-0 entry carries operand 0 and no bits, the model's: log 20; the encoder writes the skipped bits as 0, the model's choice: log 22). -/
def Obligations.FixedFieldElementsRoundTrip : Prop :=
  (∀ (c : DecodeCtx) (start p : Nat) (st : Stream) (i : Instr) (bs : List Bool), i.wf = true → i.fits c →
    c.dstate ≠ .dynLens → c.dstate ≠ .huffData → encode c p i = .bits bs → Carries st p bs →
    decodeElement c start st p = .ok (i, p + bs.length)) ∧
  (∀ (c : DecodeCtx) (start p q : Nat) (st : Stream), p ≤ q → q < p + 8 → q % 8 = 0 →
    (∀ len nlen : BitVec 16, c.dstate = .storedHdr → Carries st q (fieldBits 16 len.toNat ++ fieldBits 16 nlen.toNat) →
      decodeElement c start st p = .ok (.storedHdr len nlen, q + 32)) ∧
    (∀ b : Byte, Carries st q (fieldBits 8 b.toNat) →
      (c.dstate = .storedData → decodeElement c start st p = .ok (.storedByte b, q + 8)) ∧
      (c.dstate = .raw → c.outFull = false → decodeElement c start st p = .ok (.rawByte b, q + 8)))) ∧
  (∀ (c : DecodeCtx) (start p q : Nat) (st st' : Stream), p ≤ q → q < p + 8 → q % 8 = 0 →
    c.dstate = .storedHdr ∨ c.dstate = .storedData ∨ c.dstate = .raw → st.order = .lsb → st'.order = .lsb →
    st'.recv = st.recv → (∀ k, q ≤ k → bitAt st' k = bitAt st k) →
    decodeElement c start st' p = decodeElement c start st p ∧ decodeStoredHdr st p = decodeStoredHdr st q)

/-- Huffman-coded elements decode back from their encoding, for every table the block can build (30_encoding.md section 1 (R97, R98), section 2 (R100, R101); 41_huffman.md R175, R176, R180, R182; a DIST row decoded alone, inside a match whose length is read, is the model's choice: log 11; symbol 16 at LIDX = 0 with operand 0 and no extra bits is the model's: log 21). -/
def Obligations.HuffmanElementsRoundTrip : Prop :=
  ∀ (c : DecodeCtx) (start p : Nat) (st : Stream) (i : Instr) (bs : List Bool), i.wf = true → i.fits c →
    (c.dstate = .dynLens → BuiltFrom c.tCl 19 7) →
    (c.dstate = .huffData → BuiltFrom c.tLit 288 15 ∧ BuiltFrom c.tDist 32 15) →
    (c.dstate = .dynLens ∨ c.dstate = .huffData) → encode c p i = .bits bs → Carries st p bs →
    decodeElement c start st p = .ok (i, p + bs.length)

/-- HuffDecode reads exactly the code of a symbol, raises CORRUPT_HUFFMAN_TABLE exactly where no code matches, and underruns where more bits are needed (41_huffman.md R174, R175, R176, R177, R178, R180; 40_bitcursor.md R143, R148). -/
def Obligations.HuffDecodeInvertsCode : Prop :=
  ∀ (lens : List Nat) (maxLimit L p : Nat) (st : Stream), lens.length ≤ 288 → maxLimit ≤ 15 →
    (∀ l, l ∈ lens → l ≤ maxLimit) → overSubscribed lens maxLimit = false →
    (∀ l, l ∈ lens → l ≤ L) → (L = 0 ∨ L ∈ lens) →
    (∀ s, s < lens.length → lens.getD s 0 ≠ 0 → Delivers st p (symbolBits (tableOf lens maxLimit) s) →
      huffDecode (tableOf lens maxLimit) st p = .ok (s, p + lens.getD s 0)) ∧
    ((∀ s, s < lens.length → lens.getD s 0 ≠ 0 → ¬ Delivers st p (symbolBits (tableOf lens maxLimit) s)) →
      (p + L ≤ st.avail →
        huffDecode (tableOf lens maxLimit) st p = .error (.error .corruptHuffmanTable p (msbValue st L p))) ∧
      (p ≤ st.avail → st.avail < p + L →
        huffDecode (tableOf lens maxLimit) st p = .error (.underrun 1 st.avail))) ∧
    (L = 0 → huffDecode (tableOf lens maxLimit) st p = .error (.error .corruptHuffmanTable p 0))

/-- HuffBuild raises INVALID_CODE_LENGTHS exactly on an over-subscribed length set (R173). -/
def Obligations.OverSubscriptionIsRaisedAtBuild : Prop :=
  ∀ (tid : Nat) (lens : List Nat) (maxLimit at_ : Nat),
    ((∃ L, 1 ≤ L ∧ L ≤ maxLimit ∧
        2 ^ L < ((List.range L).map (fun j => lens.count (j + 1) * 2 ^ (L - (j + 1)))).sum) →
      huffBuild tid lens maxLimit at_ = .error (.error .invalidCodeLengths at_ (tid * 256 + 1))) ∧
    ((∀ L, 1 ≤ L → L ≤ maxLimit →
        ((List.range L).map (fun j => lens.count (j + 1) * 2 ^ (L - (j + 1)))).sum ≤ 2 ^ L) →
      huffBuild tid lens maxLimit at_ = .ok (tableOf lens maxLimit))

/-- First codes follow the recurrence and symbols of a length take consecutive codes in symbol order (R174; R175). -/
def Obligations.CodesOfALengthAreConsecutive : Prop :=
  ∀ (lens : List Nat) (maxLimit : Nat), lens.length ≤ 288 → maxLimit ≤ 15 → (∀ l, l ∈ lens → l ≤ maxLimit) →
    overSubscribed lens maxLimit = false →
    (1 ≤ maxLimit → (tableOf lens maxLimit).firstCodeAt 1 = 0) ∧
    (∀ l, 2 ≤ l → l ≤ maxLimit → (tableOf lens maxLimit).firstCodeAt l =
        2 * ((tableOf lens maxLimit).firstCodeAt (l - 1) + (tableOf lens maxLimit).countAt (l - 1))) ∧
    (∀ s r, s < lens.length → lens.getD s 0 ≠ 0 →
        r = ((List.range s).filter (fun k => lens.getD k 0 == lens.getD s 0)).length →
        (tableOf lens maxLimit).lenAt s = lens.getD s 0 ∧
        codeOf (tableOf lens maxLimit) s = (tableOf lens maxLimit).firstCodeAt (lens.getD s 0) + r ∧
        codeOf (tableOf lens maxLimit) s < 2 ^ lens.getD s 0 ∧
        (tableOf lens maxLimit).symAt ((tableOf lens maxLimit).firstIndexAt (lens.getD s 0) + r) = s)

/-- The fixed literal/length table has the fields of R185 (R185). -/
def Obligations.FixedLiteralTableFields : Prop :=
  tFixLit.count = [0, 0, 0, 0, 0, 0, 0, 24, 152, 112, 0, 0, 0, 0, 0, 0] ∧
  tFixLit.firstCode = [0, 0, 0, 0, 0, 0, 0, 48, 400, 1024, 2048, 4096, 8192, 16384, 32768] ∧
  tFixLit.firstIndexAt 7 = 0 ∧ tFixLit.firstIndexAt 8 = 24 ∧ tFixLit.firstIndexAt 9 = 176 ∧
  tFixLit.sym = (List.range' 256 24 ++ List.range 144 ++ List.range' 280 8 ++ List.range' 144 112).map (BitVec.ofNat 9) ∧
  tFixLit.maxLen = 9

/-- The fixed codes of every literal/length and distance symbol (R102; R103). -/
def Obligations.FixedCodesOfEverySymbol : Prop :=
  (∀ s, s < 144 → tFixLit.lenAt s = 8 ∧ codeOf tFixLit s = 0x30 + s) ∧
  (∀ s, 144 ≤ s → s < 256 → tFixLit.lenAt s = 9 ∧ codeOf tFixLit s = 0x190 + s - 144) ∧
  (∀ s, 256 ≤ s → s < 280 → tFixLit.lenAt s = 7 ∧ codeOf tFixLit s = s - 256) ∧
  (∀ s, 280 ≤ s → s < 288 → tFixLit.lenAt s = 8 ∧ codeOf tFixLit s = 0xC0 + s - 280) ∧
  (∀ d, d < 32 → tFixDist.lenAt d = 5 ∧ codeOf tFixDist d = d)

/-- Two reads in a row make one read, and aligned reads give bytes (R150). -/
def Obligations.ReadsSplitAndAreLittleEndian : Prop :=
  ∀ (st : Stream) (p : Nat),
    (∀ a b, a + b ≤ 16 → p + a + b ≤ st.avail →
      ∃ x y, readBits st a p = .ok (x, p + a) ∧ readBits st b (p + a) = .ok (y, p + a + b) ∧
        (st.order = .lsb → x + y * 2 ^ a = streamValue st (a + b) p) ∧
        (st.order = .msb → x * 2 ^ b + y = streamValue st (a + b) p)) ∧
    (p % 8 = 0 → p + 8 ≤ st.avail →
      readBits st 8 p = .ok ((st.byteAt (p / 8)).toNat, p + 8) ∧ readBytes st 1 p = .ok ([st.byteAt (p / 8)], p + 8)) ∧
    (p % 8 = 0 → p + 16 ≤ st.avail → st.order = .lsb →
      readBits st 16 p = .ok ((st.byteAt (p / 8)).toNat + 256 * (st.byteAt (p / 8 + 1)).toNat, p + 16))

/-- An engine turn runs the element decoded at the cursor (43_inflate.md R241; 10_state.md R27, R28; the turns and the latch npos are the model's: log 1, log 10). -/
def Obligations.StepRunsTheDecodedElement : Prop :=
  ∀ (s : State) (i : Instr) (q : Nat), s.state = .run → nextTurn s = .engine → fetchElement s = .ok (i, q) →
    step s = exec i { s with sched := s.sched.tail, npos := BitVec.ofNat 32 q }

/-- A host write to CMD runs the decoded command (44_host_commands.md R300, R311; the turns and withFetchWord are the model's: log 1). -/
def Obligations.StepRunsTheCommandWord : Prop :=
  (∀ (s : State) (w : Word) (rest : List Turn), s.sched = .regWrite 0 4 w :: rest →
    step s = exec (decodeCommand w) { s with sched := rest }) ∧
  (∀ (s : State) (w : Nat), step (s.withFetchWord 32 w) = exec (decodeCommand (BitVec.ofNat 32 w)) s)

/-- Outside RUN an engine turn changes nothing (10_state.md R27; 43_inflate.md R241; the idle turn is the model's: log 1). -/
def Obligations.EngineIsIdleOutsideRun : Prop :=
  ∀ s : State, s.state ≠ .run → nextTurn s = .engine → step s = .next { s with sched := s.sched.tail }

/-- A symbol that cannot be decoded fails its element, and an error raised while an element is read is taken precisely (60_exceptions.md R341, R349; 41_huffman.md R176, R177; 43_inflate.md R249, R251, R253). -/
def Obligations.DecodingErrorIsTaken : Prop :=
  (∀ (s : State) (r : Raise),
    (s.dstate = .dynLens → s.mlen = 0 → huffDecode s.tCl (streamOf s) s.pos.toNat = .error r →
      fetchElement s = .error r) ∧
    (s.dstate = .huffData → s.mlen = 0 → huffDecode s.tLit (streamOf s) s.pos.toNat = .error r →
      fetchElement s = .error r) ∧
    (∀ sym q : Nat, s.dstate = .huffData → s.mlen = 0 → huffDecode s.tLit (streamOf s) s.pos.toNat = .ok (sym, q) →
      257 ≤ sym → sym ≤ 285 → q + lengthExtra sym ≤ 8 * s.inRecv.toNat →
      huffDecode s.tDist (streamOf s) (q + lengthExtra sym) = .error r → fetchElement s = .error r)) ∧
  (∀ (s : State) (c : ErrCode) (a x : Nat), s.state = .run → nextTurn s = .engine →
    fetchElement s = .error (.error c a x) →
    ∃ t, step s = .next t ∧ Raised { s with sched := s.sched.tail } t c.code a x)

/-- A read underruns exactly when it needs bits past AVAIL; an underrun waits while input is missing and is fatal once the slice is complete (40_bitcursor.md R140, R143, R144, R145, R146, R147; 10_state.md R25; 60_exceptions.md R345; in MSB order inside a byte the two readings of RAR_READBYTES_ALIGN are the model's choice: log 12). -/
def Obligations.UnderrunWaitsOrTruncates : Prop :=
  (∀ (st : Stream) (n p : Nat), n ≤ 16 → p ≤ st.avail →
    (st.avail < p + n → peekBits st n p = .error (.underrun n p) ∧ readBits st n p = .error (.underrun n p)) ∧
    (p + n ≤ st.avail →
      peekBits st n p = .ok (streamValue st n p) ∧ readBits st n p = .ok (streamValue st n p, p + n))) ∧
  (∀ (st : Stream) (n p q : Nat), p ≤ st.avail → p ≤ q → q < p + 8 → q % 8 = 0 →
    (st.order = .lsb ∨ st.rarAlign = .skip ∨ p = q →
      (st.avail < q + 8 * n → readBytes st n p = .error (.underrun (8 * n) q)) ∧
      (q + 8 * n ≤ st.avail → ∃ bs, readBytes st n p = .ok (bs, q + 8 * n) ∧ bs.length = n ∧
        ∀ i, i < n → bs.getD i 0 = st.byteAt (q / 8 + i))) ∧
    (st.order = .msb → st.rarAlign = .shifted → p ≠ q →
      (st.avail < p + 8 * n → readBytes st n p = .error (.underrun (8 * n) p)) ∧
      (p + 8 * n ≤ st.avail → ∃ bs, readBytes st n p = .ok (bs, p + 8 * n) ∧ bs.length = n))) ∧
  (∀ (s : State) (req a : Nat), s.state = .run → nextTurn s = .engine →
    fetchElement s = .error (.underrun req a) →
    ∃ t, step s = .next t ∧
      (s.inRecv.toNat < s.csize.toNat →
        t = { s with
          sched := s.sched.tail
          npos := s.pos
          mlen := 0
          errcode := 0x03
          errpos := BitVec.ofNat 32 a
          erraux := BitVec.ofNat 32 req
          state := .waiting
          dstate := .none
          evlog := s.evlog ++ [.waiting (BitVec.ofNat 32 a) (BitVec.ofNat 32 req)] }) ∧
      (s.csize.toNat ≤ s.inRecv.toNat → Raised { s with sched := s.sched.tail } t 0x1A a req))

/-- Every raise leaves the state before the step with only the raise's writes (R349). -/
def Obligations.EveryErrorIsPrecise : Prop :=
  (∀ (i : Instr) (s t : State) (c : Byte) (a x : Word), exec i s = .next t →
    t.evlog = s.evlog ++ [.error c a x] → Raised s t c a.toNat x.toNat) ∧
  (∀ (s t : State) (c : Byte) (a x : Word), step s = .next t → t.evlog = s.evlog ++ [.error c a x] →
    Raised { s with sched := s.sched.tail } t c a.toNat x.toNat) ∧
  (∀ (s t : State) (a req : Word), step s = .next t → t.evlog = s.evlog ++ [.waiting a req] →
    t = { s with
      sched := s.sched.tail
      npos := s.pos
      mlen := 0
      errcode := 0x03
      errpos := a
      erraux := req
      state := .waiting
      dstate := .none
      evlog := s.evlog ++ [.waiting a req] }) ∧
  (∀ s t : State, step s = .next t →
    (t.state = .error → s.state = .error ∨ ∃ c a x, t.evlog = s.evlog ++ [.error c a x]) ∧
    (t.state = .waiting → s.state = .waiting ∨ ∃ a req, t.evlog = s.evlog ++ [.waiting a req]))

/-- NOP changes nothing in any state (R301). -/
def Obligations.NopHasNoEffect : Prop :=
  ∀ s : State, exec .nop s = .next s

/-- OPEN and CLOSE put every session register at its reset value and keep ARG, IN, OUT and EVLOG (R302; R303). -/
def Obligations.OpenAndCloseClearTheSession : Prop :=
  ∀ (s : State) (i : Instr) (dest : EState),
    (i = .openSession ∧ dest = .idle) ∨ (i = .closeSession ∧ dest = .closed) →
    ∃ t, exec i s = .next t ∧ t.state = dest ∧ t.dstate = .none ∧ t.taint = false ∧ t.bfinal = false ∧ t.btype = 0 ∧
      t.errcode = 0 ∧ t.errpos = 0 ∧ t.erraux = 0 ∧ t.method = 0 ∧ t.solid = false ∧ t.csize = 0 ∧ t.usize = 0 ∧
      t.inRecv = 0 ∧ t.pos = 0 ∧ t.order = .lsb ∧ t.storedRem = 0 ∧ t.hlit = 0 ∧ t.hdist = 0 ∧ t.hclen = 0 ∧
      t.lidx = 0 ∧ t.tCl.built = false ∧ t.tLit.built = false ∧ t.tDist.built = false ∧ t.outPtr = 0 ∧ t.hist = [] ∧
      t.progFile = 0 ∧ t.progTotal = 0 ∧ t.filesDone = 0 ∧ t.arg0 = s.arg0 ∧ t.arg1 = s.arg1 ∧ t.arg2 = s.arg2 ∧
      t.inp = s.inp ∧ t.out = s.out ∧ t.evlog = s.evlog ∧ t.epoch = s.epoch ∧ t.cfg = s.cfg ∧ t.sched = s.sched ∧
      t.hostData = s.hostData ∧ t.refusalMark = s.refusalMark ∧ t.freeReads = s.freeReads ∧
      (∀ a, inByte t a = inByte s a) ∧ (∀ a, outByte t a = outByte s a)

/-- An accepted START_ENTRY loads the entry registers, runs EntryInit and enters RUN (44_host_commands.md R304; 43_inflate.md R240; that LENS entries at or above LIDX, which are unspecified, stay is the model's choice: log 30). -/
def Obligations.StartEntryBeginsDecoding : Prop :=
  ∀ (s : State) (m : BitVec 8) (sol : Bool), (s.state = .idle ∨ s.state = .done ∨ s.state = .error) →
    m = BitVec.ofNat 8 s.arg0.toNat → sol = s.arg0.getLsbD 8 → s.arg1.toNat < s.cfg.inCap →
    s.arg2.toNat ≤ s.cfg.outCap → (m = 0 ∨ m = 8) → ¬ (sol = true ∧ s.taint = true) → (m = 0 → s.arg1 = s.arg2) →
    ∃ t, exec .startEntry s = .next t ∧
      t.tCl.built = false ∧ t.tLit.built = false ∧ t.tDist.built = false ∧
      t = { s with
        method := m
        solid := sol
        csize := s.arg1
        usize := s.arg2
        inRecv := 0
        errcode := 0
        errpos := 0
        erraux := 0
        progFile := 0
        pos := 0
        npos := 0
        mlen := 0
        order := .lsb
        outPtr := 0
        bfinal := false
        btype := 0
        storedRem := 0
        hlit := 0
        hdist := 0
        hclen := 0
        lidx := 0
        tCl := t.tCl
        tLit := t.tLit
        tDist := t.tDist
        dstate := if m = 0 then .raw else .blkHdr
        state := .run }

/-- START_ENTRY raises at the first failing check, in the order of R304 (R305). -/
def Obligations.StartEntryChecksInOrder : Prop :=
  ∀ (s : State) (m : BitVec 8) (sol : Bool), m = BitVec.ofNat 8 s.arg0.toNat → sol = s.arg0.getLsbD 8 →
    (s.state = .closed ∨ s.state = .run ∨ s.state = .waiting →
      ∃ t, exec .startEntry s = .next t ∧ Raised s t 0x1C s.pos.toNat 0x203) ∧
    (s.state = .idle ∨ s.state = .done ∨ s.state = .error →
      (s.cfg.inCap ≤ s.arg1.toNat ∨ s.cfg.outCap < s.arg2.toNat →
        ∃ t, exec .startEntry s = .next t ∧ Raised s t 0x1C s.pos.toNat 0x303) ∧
      (s.arg1.toNat < s.cfg.inCap → s.arg2.toNat ≤ s.cfg.outCap →
        (m ≠ 0 ∧ m ≠ 8 → ∃ t, exec .startEntry s = .next t ∧ Raised s t 0x04 s.pos.toNat m.toNat) ∧
        (m = 0 ∨ m = 8 →
          (sol = true ∧ s.taint = true → ∃ t, exec .startEntry s = .next t ∧ Raised s t 0x1B s.pos.toNat 0) ∧
          (sol = false ∨ s.taint = false → m = 0 → s.arg1 ≠ s.arg2 →
            ∃ t, exec .startEntry s = .next t ∧ Raised s t 0x19 s.pos.toNat s.arg1.toNat))))

/-- APPEND_INPUT advances IN_RECV, and in WAITING restarts the entry (44_host_commands.md R306, R307; 43_inflate.md R240; that LENS entries at or above LIDX, which are unspecified, stay is the model's choice: log 30). -/
def Obligations.AppendInputDeliversOrResumes : Prop :=
  ∀ s : State, s.inRecv.toNat + s.arg0.toNat ≤ s.csize.toNat →
    (s.state = .run ∨ s.state = .done →
      exec .appendInput s = .next { s with inRecv := s.inRecv + s.arg0 }) ∧
    (s.state = .waiting →
      ∃ t, exec .appendInput s = .next t ∧
        t.tCl.built = false ∧ t.tLit.built = false ∧ t.tDist.built = false ∧
        t = { s with
          inRecv := s.inRecv + s.arg0
          errcode := 0
          errpos := 0
          erraux := 0
          pos := 0
          npos := 0
          mlen := 0
          order := .lsb
          outPtr := 0
          bfinal := false
          btype := 0
          storedRem := 0
          hlit := 0
          hdist := 0
          hclen := 0
          lidx := 0
          tCl := t.tCl
          tLit := t.tLit
          tDist := t.tDist
          dstate := if s.method = 0 then .raw else .blkHdr
          state := .run })

/-- APPEND_INPUT in the wrong state or past CSIZE is ILLEGAL_COMMAND (44_host_commands.md R300, R306). -/
def Obligations.AppendInputOutOfPlaceRaises : Prop :=
  ∀ s : State,
    (s.state = .closed ∨ s.state = .idle ∨ s.state = .error →
      ∃ t, exec .appendInput s = .next t ∧ Raised s t 0x1C s.pos.toNat 0x204) ∧
    (s.state = .run ∨ s.state = .waiting ∨ s.state = .done → s.csize.toNat < s.inRecv.toNat + s.arg0.toNat →
      ∃ t, exec .appendInput s = .next t ∧ Raised s t 0x1C s.pos.toNat 0x404)

/-- Opcodes 0x05..0xFF raise ILLEGAL_COMMAND in every state (R308). -/
def Obligations.IllegalOpcodeRaises : Prop :=
  ∀ (s : State) (op : BitVec 8), 5 ≤ op.toNat →
    ∃ t, exec (.illegalOpcode op) s = .next t ∧ Raised s t 0x1C s.pos.toNat (0x100 + op.toNat)

/-- A block header latches BFINAL and BTYPE and selects the block's elements (43_inflate.md R242, R243; 44_host_commands.md R312). -/
def Obligations.BlockHeadersLatchAndSelect : Prop :=
  ∀ (s : State) (f : Bool),
    (∃ t, exec (.blockStored f) s = .next t ∧ CountersFollow s t ∧
      t = { s with
        pos := s.npos, mlen := 0, bfinal := f, btype := 0, dstate := .storedHdr
        progFile := t.progFile, progTotal := t.progTotal }) ∧
    (∃ t, exec (.blockFixed f) s = .next t ∧ CountersFollow s t ∧ t.tLit.built = true ∧ t.tDist.built = true ∧
      t = { s with
        pos := s.npos, mlen := 0, bfinal := f, btype := 1, dstate := .huffData, tLit := tFixLit, tDist := tFixDist
        progFile := t.progFile, progTotal := t.progTotal }) ∧
    (∃ t, exec (.blockDynamic f) s = .next t ∧ CountersFollow s t ∧
      t = { s with
        pos := s.npos, mlen := 0, bfinal := f, btype := 2, dstate := .dynCounts
        progFile := t.progFile, progTotal := t.progTotal })

/-- BTYPE 3 raises INVALID_BLOCK_TYPE and latches nothing (R259). -/
def Obligations.ReservedBlockTypeRaises : Prop :=
  ∀ (s : State) (f : Bool), ∃ t, exec (.blockReserved f) s = .next t ∧ Raised s t 0x10 s.pos.toNat 3

/-- A stored header loads STORED_REM, and an empty block ends at once (43_inflate.md R244, R256, R257; 44_host_commands.md R312). -/
def Obligations.StoredHeaderSelectsItsBytes : Prop :=
  ∀ (s : State) (len : BitVec 16),
    (len ≠ 0 → ∃ t, exec (.storedHdr len (len ^^^ 0xFFFF)) s = .next t ∧ CountersFollow s t ∧
      t = { s with
        pos := s.npos, mlen := 0, storedRem := len, dstate := .storedData
        progFile := t.progFile, progTotal := t.progTotal }) ∧
    (len = 0 → s.bfinal = false → ∃ t, exec (.storedHdr len (len ^^^ 0xFFFF)) s = .next t ∧ CountersFollow s t ∧
      t = { s with
        pos := s.npos, mlen := 0, storedRem := 0, dstate := .blkHdr
        progFile := t.progFile, progTotal := t.progTotal }) ∧
    (len = 0 → s.bfinal = true → s.outPtr = s.usize →
      ∃ t, exec (.storedHdr len (len ^^^ 0xFFFF)) s = .next t ∧ CountersFollow s t ∧
      t = { s with
        pos := s.npos, mlen := 0, storedRem := 0, dstate := .none, state := .done
        hist := retain s.cfg.histRetain (s.hist ++ [outSlice s s.usize.toNat])
        evlog := s.evlog ++ [.extract s.filesDone s.usize], filesDone := s.filesDone + 1
        progFile := t.progFile, progTotal := t.progTotal })

/-- A stored header with a wrong NLEN, or an empty final block of the wrong size, raises (43_inflate.md R244, R257; 60_exceptions.md R340). -/
def Obligations.StoredHeaderMismatchRaises : Prop :=
  ∀ (s : State) (len nlen : BitVec 16),
    (nlen ≠ len ^^^ 0xFFFF →
      ∃ t, exec (.storedHdr len nlen) s = .next t ∧ Raised s t 0x11 s.pos.toNat (len.toNat + nlen.toNat * 2 ^ 16)) ∧
    (nlen = len ^^^ 0xFFFF → len = 0 → s.bfinal = true → s.outPtr ≠ s.usize →
      ∃ t, exec (.storedHdr len nlen) s = .next t ∧ Raised s t 0x19 s.npos.toNat s.outPtr.toNat)

/-- A stored byte is appended to OUT and the last one ends the block; past USIZE, or short of it at the end, it raises (43_inflate.md R245, R256, R257; 42_lzwindow.md R212; 44_host_commands.md R312). -/
def Obligations.StoredByteIsCopiedOrRaises : Prop :=
  ∀ (s : State) (b : Byte),
    (s.usize.toNat ≤ s.outPtr.toNat →
      ∃ t, exec (.storedByte b) s = .next t ∧ Raised s t 0x18 s.pos.toNat s.usize.toNat) ∧
    (s.outPtr.toNat < s.usize.toNat → 1 < s.storedRem.toNat → ∃ t, exec (.storedByte b) s = .next t ∧ CountersFollow s t ∧
      outByte t s.outPtr.toNat = b ∧ OutSameOutside s t s.outPtr.toNat 1 ∧
      t = { s with
        pos := s.npos, mlen := 0, out := t.out, outPtr := s.outPtr + 1, storedRem := s.storedRem - 1
        progFile := t.progFile, progTotal := t.progTotal }) ∧
    (s.outPtr.toNat < s.usize.toNat → s.storedRem = 1 → s.bfinal = false → ∃ t, exec (.storedByte b) s = .next t ∧ CountersFollow s t ∧
      outByte t s.outPtr.toNat = b ∧ OutSameOutside s t s.outPtr.toNat 1 ∧
      t = { s with
        pos := s.npos, mlen := 0, out := t.out, outPtr := s.outPtr + 1, storedRem := 0, dstate := .blkHdr
        progFile := t.progFile, progTotal := t.progTotal }) ∧
    (s.storedRem = 1 → s.bfinal = true → s.outPtr.toNat + 1 = s.usize.toNat →
      ∃ t, exec (.storedByte b) s = .next t ∧ CountersFollow s t ∧
      outByte t s.outPtr.toNat = b ∧ OutSameOutside s t s.outPtr.toNat 1 ∧
      t = { s with
        pos := s.npos, mlen := 0, out := t.out, outPtr := s.usize, storedRem := 0, dstate := .none, state := .done
        hist := retain s.cfg.histRetain (s.hist ++ [outSlice t s.usize.toNat])
        evlog := s.evlog ++ [.extract s.filesDone s.usize], filesDone := s.filesDone + 1
        progFile := t.progFile, progTotal := t.progTotal }) ∧
    (s.storedRem = 1 → s.bfinal = true → s.outPtr.toNat + 1 < s.usize.toNat →
      ∃ t, exec (.storedByte b) s = .next t ∧ Raised s t 0x19 s.npos.toNat (s.outPtr.toNat + 1))

/-- A method-0 byte is appended to OUT, and the last one finishes the entry (43_inflate.md R260, R257; 42_lzwindow.md R212; 44_host_commands.md R312). -/
def Obligations.RawByteIsCopied : Prop :=
  ∀ (s : State) (b : Byte),
    (s.outPtr.toNat + 1 < s.usize.toNat → ∃ t, exec (.rawByte b) s = .next t ∧ CountersFollow s t ∧
      outByte t s.outPtr.toNat = b ∧ OutSameOutside s t s.outPtr.toNat 1 ∧
      t = { s with
        pos := s.npos, mlen := 0, out := t.out, outPtr := s.outPtr + 1
        progFile := t.progFile, progTotal := t.progTotal }) ∧
    (s.outPtr.toNat + 1 = s.usize.toNat → ∃ t, exec (.rawByte b) s = .next t ∧ CountersFollow s t ∧
      outByte t s.outPtr.toNat = b ∧ OutSameOutside s t s.outPtr.toNat 1 ∧
      t = { s with
        pos := s.npos, mlen := 0, out := t.out, outPtr := s.usize, dstate := .none, state := .done
        hist := retain s.cfg.histRetain (s.hist ++ [outSlice t s.usize.toNat])
        evlog := s.evlog ++ [.extract s.filesDone s.usize], filesDone := s.filesDone + 1
        progFile := t.progFile, progTotal := t.progTotal }) ∧
    (s.outPtr = s.usize → ∃ t, exec (.rawByte b) s = .next t ∧ CountersFollow s t ∧
      t = { s with
        pos := s.npos, mlen := 0, dstate := .none, state := .done
        hist := retain s.cfg.histRetain (s.hist ++ [outSlice s s.usize.toNat])
        evlog := s.evlog ++ [.extract s.filesDone s.usize], filesDone := s.filesDone + 1
        progFile := t.progFile, progTotal := t.progTotal })

/-- Dynamic counts load HLIT, HDIST and HCLEN within their ranges (43_inflate.md R247; 30_encoding.md R106; 44_host_commands.md R312). -/
def Obligations.DynamicCountsAreLoadedOrRaise : Prop :=
  ∀ (s : State) (l d : BitVec 5) (c : BitVec 4),
    (l.toNat + 257 ≤ 286 → d.toNat + 1 ≤ 30 → ∃ t, exec (.dynCounts l d c) s = .next t ∧ CountersFollow s t ∧
      t.hlit.toNat = l.toNat + 257 ∧ t.hdist.toNat = d.toNat + 1 ∧ t.hclen.toNat = c.toNat + 4 ∧
      t = { s with
        pos := s.npos, mlen := 0, hlit := t.hlit, hdist := t.hdist, hclen := t.hclen, dstate := .dynCllen
        progFile := t.progFile, progTotal := t.progTotal }) ∧
    (286 < l.toNat + 257 →
      ∃ t, exec (.dynCounts l d c) s = .next t ∧ Raised s t 0x12 s.pos.toNat 0x105) ∧
    (l.toNat + 257 ≤ 286 → 30 < d.toNat + 1 →
      ∃ t, exec (.dynCounts l d c) s = .next t ∧ Raised s t 0x12 s.pos.toNat 0x205)

/-- The code-length-code lengths are placed by CLORDER and T_CL is built from them (43_inflate.md R248; 30_encoding.md R96, R99; 41_huffman.md R172, R173; 44_host_commands.md R312; 60_exceptions.md R341, R349; that a raise leaves the table as it was before the step, where R172 says built = 0, is the model's: log 29; that LENS entries at or above LIDX, which are unspecified, stay is the model's choice: log 30). -/
def Obligations.CodeLengthCodeIsBuiltInOrder : Prop :=
  ∀ (s : State) (ls : List (BitVec 3)), ls.length ≤ 19 →
    (overSubscribed (clLengths ls) 7 = false → ∃ t, exec (.dynCllen ls) s = .next t ∧ CountersFollow s t ∧
      t.tCl = tableOf (clLengths ls) 7 ∧ t.tCl.built = true ∧
      (∀ k, k < 19 → t.tCl.lenAt (clOrder.getD k 0) = (ls.getD k 0).toNat) ∧
      t = { s with
        pos := s.npos, mlen := 0, tCl := t.tCl, lidx := 0, dstate := .dynLens
        progFile := t.progFile, progTotal := t.progTotal }) ∧
    (overSubscribed (clLengths ls) 7 = true →
      ∃ t, exec (.dynCllen ls) s = .next t ∧ Raised s t 0x12 s.pos.toNat 0x001)

/-- A code-length symbol writes its run into LENS (41_huffman.md R182; 43_inflate.md R249; 30_encoding.md R97; 44_host_commands.md R312; that LENS entries at or above LIDX, which are unspecified, stay is the model's choice: log 30). -/
def Obligations.CodeLengthSymbolsFillLens : Prop :=
  ∀ (s : State) (i : Instr) (v : BitVec 4) (r : Nat), lengthRun s i = some (v, r) →
    s.lidx.toNat + r < s.hlit.toNat + s.hdist.toNat → s.hlit.toNat + s.hdist.toNat ≤ 316 → s.lens.length = 316 →
    ∃ t, exec i s = .next t ∧ CountersFollow s t ∧ t.lidx.toNat = s.lidx.toNat + r ∧ t.lens.length = 316 ∧
      (∀ k, lensAt t k = if s.lidx.toNat ≤ k ∧ k < s.lidx.toNat + r then v else lensAt s k) ∧
      t = { s with
        pos := s.npos, mlen := 0, lens := t.lens, lidx := t.lidx, progFile := t.progFile, progTotal := t.progTotal }

/-- A repeat with no previous length and a run past HLIT + HDIST raise (41_huffman.md R182; 60_exceptions.md R340). -/
def Obligations.CodeLengthSymbolErrors : Prop :=
  (∀ (s : State) (r : BitVec 2), s.lidx = 0 →
    ∃ t, exec (.clRepeatPrev r) s = .next t ∧ Raised s t 0x12 s.pos.toNat 0x102) ∧
  (∀ (s : State) (i : Instr) (v : BitVec 4) (r : Nat), lengthRun s i = some (v, r) →
    s.hlit.toNat + s.hdist.toNat < s.lidx.toNat + r →
    ∃ t, exec i s = .next t ∧ Raised s t 0x12 s.pos.toNat 0x103)

/-- The run that completes LENS writes it entry by entry and builds T_LIT and T_DIST, or raises in the order of R250 (43_inflate.md R249, R250; 41_huffman.md R172, R182; 60_exceptions.md R341, R347, R349; that a raise leaves the tables as they were before the step, where R172 says built = 0, is the model's: log 29; that LENS entries at or above LIDX, which are unspecified, stay is the model's choice: log 30). -/
def Obligations.LastCodeLengthBuildsTheTables : Prop :=
  ∀ (s u : State) (i : Instr) (v : BitVec 4) (r : Nat) (litl dl : List Nat), lengthRun s i = some (v, r) →
    s.lidx.toNat + r = s.hlit.toNat + s.hdist.toNat → u = writeRun v r s →
    litl = (List.range 288).map (fun k => if k < s.hlit.toNat then (lensAt u k).toNat else 0) →
    dl = (List.range 32).map (fun k => if k < s.hdist.toNat then (lensAt u (s.hlit.toNat + k)).toNat else 0) →
    (s.hlit.toNat + s.hdist.toNat ≤ 316 → s.lens.length = 316 →
      u.lidx.toNat = s.lidx.toNat + r ∧ u.lens.length = 316 ∧
      (∀ k, lensAt u k = if s.lidx.toNat ≤ k ∧ k < s.lidx.toNat + r then v else lensAt s k)) ∧
    (litl.getD 256 0 = 0 → ∃ t, exec i s = .next t ∧ Raised s t 0x12 s.pos.toNat 0x104) ∧
    (litl.getD 256 0 ≠ 0 → overSubscribed litl 15 = true →
      ∃ t, exec i s = .next t ∧ Raised s t 0x12 s.pos.toNat 0x101) ∧
    (litl.getD 256 0 ≠ 0 → overSubscribed litl 15 = false → overSubscribed dl 15 = true →
      ∃ t, exec i s = .next t ∧ Raised s t 0x12 s.pos.toNat 0x201) ∧
    (litl.getD 256 0 ≠ 0 → overSubscribed litl 15 = false → overSubscribed dl 15 = false →
      ∃ t, exec i s = .next t ∧ CountersFollow s t ∧ t.tLit = tableOf litl 15 ∧ t.tDist = tableOf dl 15 ∧
      t = { s with
        pos := s.npos, mlen := 0, lens := u.lens, lidx := u.lidx, tLit := t.tLit, tDist := t.tDist
        dstate := .huffData, progFile := t.progFile, progTotal := t.progTotal })

/-- A literal is appended to OUT, and past USIZE it raises OUTPUT_OVERRUN (43_inflate.md R251; 42_lzwindow.md R212; 44_host_commands.md R312). -/
def Obligations.LiteralIsAppendedOrOverruns : Prop :=
  ∀ (s : State) (b : Byte),
    (s.outPtr.toNat < s.usize.toNat → ∃ t, exec (.lit b) s = .next t ∧ CountersFollow s t ∧
      outByte t s.outPtr.toNat = b ∧ OutSameOutside s t s.outPtr.toNat 1 ∧
      t = { s with
        pos := s.npos, mlen := 0, out := t.out, outPtr := s.outPtr + 1
        progFile := t.progFile, progTotal := t.progTotal }) ∧
    (s.usize.toNat ≤ s.outPtr.toNat →
      ∃ t, exec (.lit b) s = .next t ∧ Raised s t 0x18 s.pos.toNat s.usize.toNat)

/-- EOB goes to the next header, or on the final block finishes the entry (43_inflate.md R252, R256, R257; 42_lzwindow.md R217; 44_host_commands.md R312). -/
def Obligations.EndOfBlockChainsOrFinishes : Prop :=
  ∀ s : State,
    (s.bfinal = false → ∃ t, exec .eob s = .next t ∧ CountersFollow s t ∧
      t = { s with pos := s.npos, mlen := 0, dstate := .blkHdr, progFile := t.progFile, progTotal := t.progTotal }) ∧
    (s.bfinal = true → s.outPtr = s.usize → ∃ t, exec .eob s = .next t ∧ CountersFollow s t ∧
      t = { s with
        pos := s.npos, mlen := 0, dstate := .none, state := .done
        hist := retain s.cfg.histRetain (s.hist ++ [outSlice s s.usize.toNat])
        evlog := s.evlog ++ [.extract s.filesDone s.usize], filesDone := s.filesDone + 1
        progFile := t.progFile, progTotal := t.progTotal }) ∧
    (s.bfinal = true → s.outPtr ≠ s.usize →
      ∃ t, exec .eob s = .next t ∧ Raised s t 0x19 s.npos.toNat s.outPtr.toNat)

/-- A match appends len bytes, each the byte dist back in the logical space (43_inflate.md R253; 42_lzwindow.md R211, R213, R214, R215, R216; 30_encoding.md R100, R101, R106; 44_host_commands.md R312). -/
def Obligations.MatchCopiesByteSerially : Prop :=
  ∀ (s : State) (i : Instr) (sym e d x len dist : Nat), i.matchFields = some (sym, e, d, x) → d < 30 →
    len = lengthBase sym + e → dist = distanceBase d + x →
    dist ≤ visibleHistory s + s.outPtr.toNat → s.outPtr.toNat + len ≤ s.usize.toNat →
    ∃ t, exec i s = .next t ∧ CountersFollow s t ∧ t.outPtr.toNat = s.outPtr.toNat + len ∧
      (∀ j, j < len → outByte t (s.outPtr.toNat + j) = logical t (visibleHistory s + s.outPtr.toNat + j - dist)) ∧
      OutSameOutside s t s.outPtr.toNat len ∧
      t = { s with
        pos := s.npos, mlen := 0, out := t.out, outPtr := t.outPtr, progFile := t.progFile, progTotal := t.progTotal }

/-- A match or distance field raises INVALID_DISTANCE_SYMBOL, then DISTANCE_TOO_FAR, then OUTPUT_OVERRUN, with nothing written (43_inflate.md R253, R255; 42_lzwindow.md R214; 60_exceptions.md R347; the latch of a distance field is the model's: log 11). -/
def Obligations.MatchRaisesInOrder : Prop :=
  ∀ (s : State) (i : Instr) (d x len dist : Nat),
    ((∃ sym e, i.matchFields = some (sym, e, d, x) ∧ len = lengthBase sym + e) ∨
      (i.distanceFields = some (d, x) ∧ len = s.mlen.toNat)) → dist = distanceBase d + x →
    (30 ≤ d → ∃ t, exec i s = .next t ∧ Raised s t 0x16 s.pos.toNat d) ∧
    (d < 30 → visibleHistory s + s.outPtr.toNat < dist →
      ∃ t, exec i s = .next t ∧ Raised s t 0x17 s.pos.toNat dist) ∧
    (d < 30 → dist ≤ visibleHistory s + s.outPtr.toNat → s.usize.toNat < s.outPtr.toNat + len →
      ∃ t, exec i s = .next t ∧ Raised s t 0x18 s.pos.toNat len)

/-- A distance field copies the length already read from its distance (the latch is the model's, log 11) (43_inflate.md R253; 42_lzwindow.md R213, R214; 30_encoding.md R98, R101, R106; the model's latch for the length already read: log 11). -/
def Obligations.DistanceFieldCompletesTheMatch : Prop :=
  ∀ (s : State) (i : Instr) (d x len dist : Nat), i.distanceFields = some (d, x) → d < 30 →
    len = s.mlen.toNat → dist = distanceBase d + x →
    dist ≤ visibleHistory s + s.outPtr.toNat → s.outPtr.toNat + len ≤ s.usize.toNat →
    ∃ t, exec i s = .next t ∧ CountersFollow s t ∧ t.outPtr.toNat = s.outPtr.toNat + len ∧
      (∀ j, j < len → outByte t (s.outPtr.toNat + j) = logical t (visibleHistory s + s.outPtr.toNat + j - dist)) ∧
      OutSameOutside s t s.outPtr.toNat len ∧
      t = { s with
        pos := s.npos, mlen := 0, out := t.out, outPtr := t.outPtr, progFile := t.progFile, progTotal := t.progTotal }

/-- Symbols 286, 287 and distance symbols 30, 31 raise at the element start, and nothing is written (43_inflate.md R254, R255; 41_huffman.md R185; 10_state.md R33; a DIST_INVALID row run alone, inside a match whose length is read, is the model's choice: log 11). -/
def Obligations.InvalidSymbolsRaise : Prop :=
  ∀ s : State,
    (∃ t, exec .litlenInvalid286 s = .next t ∧ Raised s t 0x15 s.pos.toNat 286) ∧
    (∃ t, exec .litlenInvalid287 s = .next t ∧ Raised s t 0x15 s.pos.toNat 287) ∧
    (∃ t, exec .distInvalid30 s = .next t ∧ Raised s t 0x16 s.pos.toNat 30) ∧
    (∃ t, exec .distInvalid31 s = .next t ∧ Raised s t 0x16 s.pos.toNat 31) ∧
    (∀ (i : Instr) (sym e d x : Nat), i.matchFields = some (sym, e, d, x) → d = 30 ∨ d = 31 →
      ∃ t, exec i s = .next t ∧ Raised s t 0x16 s.pos.toNat d) ∧
    tFixLit.lenAt 286 = 8 ∧ tFixLit.lenAt 287 = 8 ∧ tFixDist.lenAt 30 = 5 ∧ tFixDist.lenAt 31 = 5

/-- Retention drops only the oldest members, and only while enough bytes stay (R218). -/
def Obligations.RetainKeepsTheNewestBytes : Prop :=
  (∀ h : List (List Byte), retain none h = h) ∧
  (∀ (r : Nat) (h : List (List Byte)),
    (∃ dropped, h = dropped ++ retain (some r) h) ∧ (h ≠ [] → retain (some r) h ≠ []) ∧
    min r (historyLength h) ≤ historyLength (retain (some r) h) ∧
    ((retain (some r) h).length ≤ 1 ∨ historyLength (retain (some r) h).tail < r) ∧
    (∀ k, k < h.length - (retain (some r) h).length → r ≤ historyLength (h.drop (k + 1))))

/-- Only OPEN, CLOSE and reset empty the history, and only a finished entry adds to it (R220). -/
def Obligations.HistoryLivesForOneSession : Prop :=
  ∀ s t : State, step s = .next t →
    ((nextTurn s).startsAnew → t.hist = []) ∧
    (¬ (nextTurn s).startsAnew →
      t.hist = s.hist ∨
      (nextTurn s = .engine ∧ s.state = .run ∧ t.state = .done ∧
        t.hist = retain s.cfg.histRetain (s.hist ++ [outSlice t s.usize.toNat])))

/-- An instruction of a non-solid entry gives the same result whatever the history holds (42_lzwindow.md R211). -/
def Obligations.NonSolidEntryIgnoresTheHistory : Prop :=
  ∀ (i : Instr) (s t : State) (h : List (List Byte)), s.solid = false → exec i s = .next t →
    ∃ h', exec i { s with hist := h } = .next { t with hist := h' }

/-- A host IN write is admitted only above IN_RECV and below CSIZE, and is otherwise refused (70_reset_and_hazards.md R390; 20_memory.md R61; 44_host_commands.md R310; a refused access as a next state with the refusal mark is the model's: log 6). -/
def Obligations.HostWritesToIn : Prop :=
  ∀ (s : State) (a : Nat) (b : Byte) (rest : List Turn), s.sched = .inWrite a b :: rest →
    (a < s.cfg.inCap → (s.state = .run ∨ s.state = .waiting ∨ s.state = .done) → s.inRecv.toNat ≤ a → a < s.csize.toNat →
      ∃ t, step s = .next t ∧ inByte t a = b ∧ (∀ c, c ≠ a → inByte t c = inByte s c) ∧
        t = { s with sched := rest, inp := t.inp }) ∧
    ((a < s.inRecv.toNat ∨ s.csize.toNat ≤ a ∨ s.state = .closed ∨ s.state = .idle ∨ s.state = .error) →
      ∃ t, step s = .next t ∧ t.refusalMark ≠ none ∧ t = { s with sched := rest, refusalMark := t.refusalMark })

/-- OUT reads return the entry's byte in DONE and a free value elsewhere; OUT writes are refused (44_host_commands.md R309; 20_memory.md R62; 70_reset_and_hazards.md R392, R393; the free value and the refusal mark are the model's: log 5, log 6; the record hostData of what a read returns, a byte zero-extended, is the model's choice: log 16). -/
def Obligations.HostReadsAndWritesOfOut : Prop :=
  (∀ (s : State) (a : Nat) (rest : List Turn), s.sched = .outRead a :: rest →
    (a < s.cfg.outCap → s.state = .done → a < s.usize.toNat →
      step s = .next { s with sched := rest, hostData := (outByte s a).setWidth 32 }) ∧
    (a < s.cfg.outCap → (s.state ≠ .done ∨ s.usize.toNat ≤ a) →
      ∃ (t : State) (b : Byte), step s = .next t ∧ t.hostData = b.setWidth 32 ∧
        t = { s with sched := rest, hostData := t.hostData, freeReads := t.freeReads }) ∧
    (s.cfg.outCap ≤ a →
      ∃ t, step s = .next t ∧ t.refusalMark ≠ none ∧ t = { s with sched := rest, refusalMark := t.refusalMark })) ∧
  (∀ (s : State) (a : Nat) (b : Byte) (rest : List Turn), s.sched = .outWrite a b :: rest →
    ∃ t, step s = .next t ∧ t.refusalMark ≠ none ∧ t = { s with sched := rest, refusalMark := t.refusalMark })

/-- A whole-word register read returns the register and has no side effect (10_state.md R22, R24, R35; 44_host_commands.md R311; the record of what was read is the model's: log 16). -/
def Obligations.RegisterReadsReturnTheMap : Prop :=
  ∀ (s : State) (k : Nat) (rest : List Turn), s.sched = .regRead (4 * k) 4 :: rest → k < 64 →
    ∃ v : Word, step s = .next { s with sched := rest, hostData := v } ∧
      (k = 0 → v = 0) ∧ (k = 1 → v = statusWord s) ∧ (k = 2 → v.toNat = s.errcode.toNat) ∧ (k = 3 → v = s.errpos) ∧
      (k = 4 → v = s.erraux) ∧ (k = 5 → v = s.arg0) ∧ (k = 6 → v = s.arg1) ∧ (k = 7 → v = s.arg2) ∧
      (k = 8 → v.toNat = s.method.toNat + 256 * s.solid.toNat) ∧ (k = 9 → v = s.csize) ∧ (k = 10 → v = s.usize) ∧
      (k = 11 → v = s.inRecv) ∧ (k = 12 → v = s.pos ∧ v.toNat = 8 * s.byteIndex.toNat + s.bitIndex.toNat) ∧
      (k = 13 → v = s.outPtr) ∧ (k = 14 → v = s.progFile) ∧ (k = 15 → v.toNat = s.progTotal.toNat % 2 ^ 32) ∧
      (k = 16 → v.toNat = s.progTotal.toNat / 2 ^ 32) ∧ (k = 17 → v = s.filesDone) ∧
      (k = 18 → v.toNat = s.hist.length % 2 ^ 32) ∧ (k = 19 → v.toNat = s.hist.flatten.length % 2 ^ 32) ∧
      (k = 20 → v.toNat = s.hist.flatten.length / 2 ^ 32 % 2 ^ 32) ∧ (21 ≤ k → v = 0)

/-- STATUS holds STATE, TAINT, BFINAL, BTYPE, EVT and DSTATE at their bits (R23). -/
def Obligations.StatusWordFields : Prop :=
  (∀ s : State, (statusWord s).toNat =
    s.state.code.toNat + 8 * s.taint.toNat + 16 * s.bfinal.toNat + 32 * s.btype.toNat + 128 * (evt s).toNat +
      256 * s.dstate.code.toNat) ∧
  (∀ s : State, evt s = true ↔ s.state = .waiting ∨ s.state = .done ∨ s.state = .error) ∧
  [EState.closed, .idle, .run, .waiting, .done, .error].map EState.code = [0, 1, 2, 3, 4, 5] ∧
  [DState.none, .raw, .blkHdr, .storedHdr, .storedData, .dynCounts, .dynCllen, .dynLens, .huffData].map DState.code =
    [0, 1, 2, 3, 4, 5, 6, 7, 8] ∧
  statusWord State.reset = 0

/-- Host register writes store ARG0..ARG2, are ignored elsewhere, and are refused when not whole aligned words (10_state.md R22, R38; 44_host_commands.md R311; 70_reset_and_hazards.md R392; the refusal mark as a next state is the model's: log 6). -/
def Obligations.RegisterWritesStoreArgumentsOnly : Prop :=
  (∀ (s : State) (k : Nat) (w : Word) (rest : List Turn), s.sched = .regWrite (4 * k) 4 w :: rest → 1 ≤ k → k < 64 →
    (k = 5 → step s = .next { s with sched := rest, arg0 := w }) ∧
    (k = 6 → step s = .next { s with sched := rest, arg1 := w }) ∧
    (k = 7 → step s = .next { s with sched := rest, arg2 := w }) ∧
    (k ≠ 5 → k ≠ 6 → k ≠ 7 → step s = .next { s with sched := rest })) ∧
  (∀ (s : State) (offset size : Nat) (w : Word) (rest : List Turn), (size ≠ 4 ∨ offset % 4 ≠ 0 ∨ 256 ≤ offset) →
    s.sched = .regWrite offset size w :: rest ∨ s.sched = .regRead offset size :: rest →
    ∃ t, step s = .next t ∧ t.refusalMark ≠ none ∧ t = { s with sched := rest, refusalMark := t.refusalMark })

/-- Reset gives every register the value the spec states (70_reset_and_hazards.md R380; 10_state.md R41; 93_implementation_defined.md U1, U2; unspecified IN and OUT bytes as bytes nothing has written are the model's choice: log 3, log 4; a hardware reset as a turn is the model's choice: log 17; the idle engine turn is the model's: log 1). -/
def Obligations.ResetHoldsTheStatedValues : Prop :=
  ∀ t : State, (t = State.reset ∨ ∃ s : State, nextTurn s = .hardReset ∧ step s = .next t) →
    t.state = .closed ∧ t.dstate = .none ∧ t.taint = false ∧ t.bfinal = false ∧ t.btype = 0 ∧ t.errcode = 0 ∧
    t.errpos = 0 ∧ t.erraux = 0 ∧ t.arg0 = 0 ∧ t.arg1 = 0 ∧ t.arg2 = 0 ∧ t.method = 0 ∧ t.solid = false ∧
    t.csize = 0 ∧ t.usize = 0 ∧ t.inRecv = 0 ∧ t.pos = 0 ∧ t.byteIndex = 0 ∧ t.bitIndex = 0 ∧ t.order = .lsb ∧
    t.storedRem = 0 ∧ t.hlit = 0 ∧ t.hdist = 0 ∧ t.hclen = 0 ∧ t.lidx = 0 ∧ t.tCl.built = false ∧
    t.tLit.built = false ∧ t.tDist.built = false ∧ t.outPtr = 0 ∧ t.hist = [] ∧ t.progFile = 0 ∧ t.progTotal = 0 ∧
    t.filesDone = 0 ∧ t.evlog = [] ∧ (∀ a, t.inp.read? a = none) ∧ (∀ a, t.out.read? a = none) ∧
    engineWork t = .settled (.next t)

/-- The reset state meets the machine invariant (44_host_commands.md R314; 10_state.md R25, R41; the reset values of LENS, the tables and the parameters are the model's: log 2, log 7). -/
def Obligations.ResetMeetsTheInvariant : Prop :=
  Inv State.reset

/-- From every state that meets the invariant a step answers a next state that meets it (44_host_commands.md R314; 10_state.md R25, R26, R29, R31; 41_huffman.md R179; 43_inflate.md R245; 60_exceptions.md R344, R357; 00_scope.md R9, which calls a forbidden host step a refusal: as a next state with the mark set it is the model's choice, log 6; an engine turn outside RUN as a next state is the model's choice: log 1). -/
def Obligations.StepKeepsTheInvariantAndNeverStops : Prop :=
  ∀ s : State, Inv s → ∃ t, step s = .next t ∧ Inv t

/-- No step changes a delivered IN byte, and no instruction writes IN at all (20_memory.md R61, R75; 93_implementation_defined.md U2, U4; that an IN byte nothing has written reads the same each time is the model's choice: log 3). -/
def Obligations.DeliveredInputIsImmutable : Prop :=
  (∀ (i : Instr) (s t : State), exec i s = .next t → ∀ a, inByte t a = inByte s a) ∧
  (∀ s t : State, nextTurn s = .engine → step s = .next t → ∀ a, inByte t a = inByte s a) ∧
  (∀ s t : State, nextTurn s ≠ .hardReset → step s = .next t →
    ∀ a, a < s.inRecv.toNat → inByte t a = inByte s a)

/-- TAINT is set by errors and cleared only by OPEN, CLOSE or reset (60_exceptions.md R343; 70_reset_and_hazards.md R380). -/
def Obligations.TaintIsClearedOnlyAnew : Prop :=
  ∀ s t : State, step s = .next t →
    (s.taint = true → ¬ (nextTurn s).startsAnew → t.taint = true) ∧
    ((nextTurn s).startsAnew → t.taint = false) ∧
    (t.taint = true → s.taint = true ∨ t.state = .error)

/-- EVLOG is only appended to, by at most one record a step, across sessions too (10_state.md R39, R40; 44_host_commands.md R302; 93_implementation_defined.md U32; 00_scope.md R5; the parameters as the constant field cfg of the state are the model's choice: log 2). -/
def Obligations.EventLogOnlyGrows : Prop :=
  ∀ s t : State, step s = .next t →
    t.cfg = s.cfg ∧ (nextTurn s ≠ .hardReset → ∃ es, es.length ≤ 1 ∧ t.evlog = s.evlog ++ es)

/-- PROG_FILE never decreases within an entry, and PROG_TOTAL grows by exactly its increases (44_host_commands.md R312; 10_state.md R36). -/
def Obligations.ProgressNeverDecreases : Prop :=
  ∀ s t : State, step s = .next t → ¬ (nextTurn s).startsAnew → ¬ (nextTurn s).startsEntry →
    s.progFile.toNat ≤ t.progFile.toNat ∧
    t.progTotal = s.progTotal + BitVec.ofNat 64 (t.progFile.toNat - s.progFile.toNat)

/-- An engine step that stays in RUN advances the cursor (70_reset_and_hazards.md R395). -/
def Obligations.EveryRunningStepConsumesInput : Prop :=
  ∀ s t : State, Inv s → s.state = .run → nextTurn s = .engine → step s = .next t → t.state = .run →
    s.pos.toNat < t.pos.toNat

/-- One attempt at an entry leaves RUN within 8 CSIZE + 1 engine steps (70_reset_and_hazards.md R395). -/
def Obligations.OneAttemptIsBounded : Prop :=
  ∀ s : State, Inv s → s.state = .run → s.sched = [] →
    ∃ (k : Nat) (t : State), k ≤ 8 * s.csize.toNat + 1 ∧ Sys2Proof.core.run k s = .next t ∧
      (t.state = .done ∨ t.state = .error ∨ t.state = .waiting)

/-- An element decoded from part of the slice decodes the same from more of it (43_inflate.md R261; 60_exceptions.md R346; 41_huffman.md R178). -/
def Obligations.MoreInputKeepsEveryElement : Prop :=
  ∀ (s : State) (n : Word), s.inRecv.toNat ≤ n.toNat →
    (∀ (i : Instr) (q : Nat), fetchElement s = .ok (i, q) → fetchElement { s with inRecv := n } = .ok (i, q)) ∧
    (∀ (c : ErrCode) (a x : Nat), fetchElement s = .error (.error c a x) →
      fetchElement { s with inRecv := n } = .error (.error c a x))

/-- OUT above OUT_PTR, LENS above LIDX and unbuilt tables never influence anything (93_implementation_defined.md U1, U5, U6; 10_state.md R31, R32, R34; 43_inflate.md R261). -/
def Obligations.UnspecifiedContentsAreNeverRead : Prop :=
  ∀ s t s' : State, Inv s → Inv t → SameSpecified s t → step s = .next s' →
    ∃ t', step t = .next t' ∧ SameSpecified s' t'
end

