-- ==== Sys2Proof/Laws/State.lean ====
section
/-! SUPPORT. One lemma per field per named update of the state: what the update puts there, or that it leaves the field
as it was. -/

namespace Sys2Proof.Machine

/-! ## raiseError: `raise E(at, aux)` (60 R341) -/

@[simp] theorem raiseError_cfg (c : ErrCode) (a x : Nat) (s : State) : (raiseError c a x s).cfg = s.cfg := rfl
@[simp] theorem raiseError_sched (c : ErrCode) (a x : Nat) (s : State) : (raiseError c a x s).sched = s.sched := rfl
@[simp] theorem raiseError_hostData (c : ErrCode) (a x : Nat) (s : State) :
    (raiseError c a x s).hostData = s.hostData := rfl
@[simp] theorem raiseError_refusalMark (c : ErrCode) (a x : Nat) (s : State) :
    (raiseError c a x s).refusalMark = s.refusalMark := rfl
@[simp] theorem raiseError_freeReads (c : ErrCode) (a x : Nat) (s : State) :
    (raiseError c a x s).freeReads = s.freeReads := rfl
@[simp] theorem raiseError_epoch (c : ErrCode) (a x : Nat) (s : State) : (raiseError c a x s).epoch = s.epoch := rfl
@[simp] theorem raiseError_arg0 (c : ErrCode) (a x : Nat) (s : State) : (raiseError c a x s).arg0 = s.arg0 := rfl
@[simp] theorem raiseError_arg1 (c : ErrCode) (a x : Nat) (s : State) : (raiseError c a x s).arg1 = s.arg1 := rfl
@[simp] theorem raiseError_arg2 (c : ErrCode) (a x : Nat) (s : State) : (raiseError c a x s).arg2 = s.arg2 := rfl
@[simp] theorem raiseError_state (c : ErrCode) (a x : Nat) (s : State) : (raiseError c a x s).state = .error := rfl
@[simp] theorem raiseError_dstate (c : ErrCode) (a x : Nat) (s : State) : (raiseError c a x s).dstate = .none := rfl
@[simp] theorem raiseError_taint (c : ErrCode) (a x : Nat) (s : State) : (raiseError c a x s).taint = true := rfl
@[simp] theorem raiseError_bfinal (c : ErrCode) (a x : Nat) (s : State) : (raiseError c a x s).bfinal = s.bfinal := rfl
@[simp] theorem raiseError_btype (c : ErrCode) (a x : Nat) (s : State) : (raiseError c a x s).btype = s.btype := rfl
@[simp] theorem raiseError_errcode (c : ErrCode) (a x : Nat) (s : State) : (raiseError c a x s).errcode = c.code := rfl
@[simp] theorem raiseError_errpos (c : ErrCode) (a x : Nat) (s : State) :
    (raiseError c a x s).errpos = BitVec.ofNat 32 a := rfl
@[simp] theorem raiseError_erraux (c : ErrCode) (a x : Nat) (s : State) :
    (raiseError c a x s).erraux = BitVec.ofNat 32 x := rfl
@[simp] theorem raiseError_method (c : ErrCode) (a x : Nat) (s : State) : (raiseError c a x s).method = s.method := rfl
@[simp] theorem raiseError_solid (c : ErrCode) (a x : Nat) (s : State) : (raiseError c a x s).solid = s.solid := rfl
@[simp] theorem raiseError_csize (c : ErrCode) (a x : Nat) (s : State) : (raiseError c a x s).csize = s.csize := rfl
@[simp] theorem raiseError_usize (c : ErrCode) (a x : Nat) (s : State) : (raiseError c a x s).usize = s.usize := rfl
@[simp] theorem raiseError_inRecv (c : ErrCode) (a x : Nat) (s : State) : (raiseError c a x s).inRecv = s.inRecv := rfl
@[simp] theorem raiseError_pos (c : ErrCode) (a x : Nat) (s : State) : (raiseError c a x s).pos = s.pos := rfl
@[simp] theorem raiseError_npos (c : ErrCode) (a x : Nat) (s : State) : (raiseError c a x s).npos = s.pos := rfl
@[simp] theorem raiseError_order (c : ErrCode) (a x : Nat) (s : State) : (raiseError c a x s).order = s.order := rfl
@[simp] theorem raiseError_storedRem (c : ErrCode) (a x : Nat) (s : State) :
    (raiseError c a x s).storedRem = s.storedRem := rfl
@[simp] theorem raiseError_hlit (c : ErrCode) (a x : Nat) (s : State) : (raiseError c a x s).hlit = s.hlit := rfl
@[simp] theorem raiseError_hdist (c : ErrCode) (a x : Nat) (s : State) : (raiseError c a x s).hdist = s.hdist := rfl
@[simp] theorem raiseError_hclen (c : ErrCode) (a x : Nat) (s : State) : (raiseError c a x s).hclen = s.hclen := rfl
@[simp] theorem raiseError_lens (c : ErrCode) (a x : Nat) (s : State) : (raiseError c a x s).lens = s.lens := rfl
@[simp] theorem raiseError_lidx (c : ErrCode) (a x : Nat) (s : State) : (raiseError c a x s).lidx = s.lidx := rfl
@[simp] theorem raiseError_mlen (c : ErrCode) (a x : Nat) (s : State) : (raiseError c a x s).mlen = 0 := rfl
@[simp] theorem raiseError_tCl (c : ErrCode) (a x : Nat) (s : State) : (raiseError c a x s).tCl = s.tCl := rfl
@[simp] theorem raiseError_tLit (c : ErrCode) (a x : Nat) (s : State) : (raiseError c a x s).tLit = s.tLit := rfl
@[simp] theorem raiseError_tDist (c : ErrCode) (a x : Nat) (s : State) : (raiseError c a x s).tDist = s.tDist := rfl
@[simp] theorem raiseError_inp (c : ErrCode) (a x : Nat) (s : State) : (raiseError c a x s).inp = s.inp := rfl
@[simp] theorem raiseError_out (c : ErrCode) (a x : Nat) (s : State) : (raiseError c a x s).out = s.out := rfl
@[simp] theorem raiseError_outPtr (c : ErrCode) (a x : Nat) (s : State) : (raiseError c a x s).outPtr = s.outPtr := rfl
@[simp] theorem raiseError_hist (c : ErrCode) (a x : Nat) (s : State) : (raiseError c a x s).hist = s.hist := rfl
@[simp] theorem raiseError_progFile (c : ErrCode) (a x : Nat) (s : State) :
    (raiseError c a x s).progFile = s.progFile := rfl
@[simp] theorem raiseError_progTotal (c : ErrCode) (a x : Nat) (s : State) :
    (raiseError c a x s).progTotal = s.progTotal := rfl
@[simp] theorem raiseError_filesDone (c : ErrCode) (a x : Nat) (s : State) :
    (raiseError c a x s).filesDone = s.filesDone := rfl
@[simp] theorem raiseError_evlog (c : ErrCode) (a x : Nat) (s : State) :
    (raiseError c a x s).evlog = s.evlog ++ [.error c.code (BitVec.ofNat 32 a) (BitVec.ofNat 32 x)] := rfl

/-! ## enterWaiting: `raise BUFFER_UNDERRUN(req, at)` (60 R345) -/

@[simp] theorem enterWaiting_cfg (r a : Nat) (s : State) : (enterWaiting r a s).cfg = s.cfg := rfl
@[simp] theorem enterWaiting_sched (r a : Nat) (s : State) : (enterWaiting r a s).sched = s.sched := rfl
@[simp] theorem enterWaiting_hostData (r a : Nat) (s : State) : (enterWaiting r a s).hostData = s.hostData := rfl
@[simp] theorem enterWaiting_refusalMark (r a : Nat) (s : State) :
    (enterWaiting r a s).refusalMark = s.refusalMark := rfl
@[simp] theorem enterWaiting_freeReads (r a : Nat) (s : State) : (enterWaiting r a s).freeReads = s.freeReads := rfl
@[simp] theorem enterWaiting_epoch (r a : Nat) (s : State) : (enterWaiting r a s).epoch = s.epoch := rfl
@[simp] theorem enterWaiting_arg0 (r a : Nat) (s : State) : (enterWaiting r a s).arg0 = s.arg0 := rfl
@[simp] theorem enterWaiting_arg1 (r a : Nat) (s : State) : (enterWaiting r a s).arg1 = s.arg1 := rfl
@[simp] theorem enterWaiting_arg2 (r a : Nat) (s : State) : (enterWaiting r a s).arg2 = s.arg2 := rfl
@[simp] theorem enterWaiting_state (r a : Nat) (s : State) : (enterWaiting r a s).state = .waiting := rfl
@[simp] theorem enterWaiting_dstate (r a : Nat) (s : State) : (enterWaiting r a s).dstate = .none := rfl
@[simp] theorem enterWaiting_taint (r a : Nat) (s : State) : (enterWaiting r a s).taint = s.taint := rfl
@[simp] theorem enterWaiting_bfinal (r a : Nat) (s : State) : (enterWaiting r a s).bfinal = s.bfinal := rfl
@[simp] theorem enterWaiting_btype (r a : Nat) (s : State) : (enterWaiting r a s).btype = s.btype := rfl
@[simp] theorem enterWaiting_errcode (r a : Nat) (s : State) : (enterWaiting r a s).errcode = underrunCode := rfl
@[simp] theorem enterWaiting_errpos (r a : Nat) (s : State) : (enterWaiting r a s).errpos = BitVec.ofNat 32 a := rfl
@[simp] theorem enterWaiting_erraux (r a : Nat) (s : State) : (enterWaiting r a s).erraux = BitVec.ofNat 32 r := rfl
@[simp] theorem enterWaiting_method (r a : Nat) (s : State) : (enterWaiting r a s).method = s.method := rfl
@[simp] theorem enterWaiting_solid (r a : Nat) (s : State) : (enterWaiting r a s).solid = s.solid := rfl
@[simp] theorem enterWaiting_csize (r a : Nat) (s : State) : (enterWaiting r a s).csize = s.csize := rfl
@[simp] theorem enterWaiting_usize (r a : Nat) (s : State) : (enterWaiting r a s).usize = s.usize := rfl
@[simp] theorem enterWaiting_inRecv (r a : Nat) (s : State) : (enterWaiting r a s).inRecv = s.inRecv := rfl
@[simp] theorem enterWaiting_pos (r a : Nat) (s : State) : (enterWaiting r a s).pos = s.pos := rfl
@[simp] theorem enterWaiting_npos (r a : Nat) (s : State) : (enterWaiting r a s).npos = s.pos := rfl
@[simp] theorem enterWaiting_order (r a : Nat) (s : State) : (enterWaiting r a s).order = s.order := rfl
@[simp] theorem enterWaiting_storedRem (r a : Nat) (s : State) : (enterWaiting r a s).storedRem = s.storedRem := rfl
@[simp] theorem enterWaiting_hlit (r a : Nat) (s : State) : (enterWaiting r a s).hlit = s.hlit := rfl
@[simp] theorem enterWaiting_hdist (r a : Nat) (s : State) : (enterWaiting r a s).hdist = s.hdist := rfl
@[simp] theorem enterWaiting_hclen (r a : Nat) (s : State) : (enterWaiting r a s).hclen = s.hclen := rfl
@[simp] theorem enterWaiting_lens (r a : Nat) (s : State) : (enterWaiting r a s).lens = s.lens := rfl
@[simp] theorem enterWaiting_lidx (r a : Nat) (s : State) : (enterWaiting r a s).lidx = s.lidx := rfl
@[simp] theorem enterWaiting_mlen (r a : Nat) (s : State) : (enterWaiting r a s).mlen = 0 := rfl
@[simp] theorem enterWaiting_tCl (r a : Nat) (s : State) : (enterWaiting r a s).tCl = s.tCl := rfl
@[simp] theorem enterWaiting_tLit (r a : Nat) (s : State) : (enterWaiting r a s).tLit = s.tLit := rfl
@[simp] theorem enterWaiting_tDist (r a : Nat) (s : State) : (enterWaiting r a s).tDist = s.tDist := rfl
@[simp] theorem enterWaiting_inp (r a : Nat) (s : State) : (enterWaiting r a s).inp = s.inp := rfl
@[simp] theorem enterWaiting_out (r a : Nat) (s : State) : (enterWaiting r a s).out = s.out := rfl
@[simp] theorem enterWaiting_outPtr (r a : Nat) (s : State) : (enterWaiting r a s).outPtr = s.outPtr := rfl
@[simp] theorem enterWaiting_hist (r a : Nat) (s : State) : (enterWaiting r a s).hist = s.hist := rfl
@[simp] theorem enterWaiting_progFile (r a : Nat) (s : State) : (enterWaiting r a s).progFile = s.progFile := rfl
@[simp] theorem enterWaiting_progTotal (r a : Nat) (s : State) : (enterWaiting r a s).progTotal = s.progTotal := rfl
@[simp] theorem enterWaiting_filesDone (r a : Nat) (s : State) : (enterWaiting r a s).filesDone = s.filesDone := rfl
@[simp] theorem enterWaiting_evlog (r a : Nat) (s : State) :
    (enterWaiting r a s).evlog = s.evlog ++ [.waiting (BitVec.ofNat 32 a) (BitVec.ofNat 32 r)] := rfl

/-! ## entryInit: EntryInit (43 R240) -/

@[simp] theorem entryInit_cfg (s : State) : (entryInit s).cfg = s.cfg := rfl
@[simp] theorem entryInit_sched (s : State) : (entryInit s).sched = s.sched := rfl
@[simp] theorem entryInit_hostData (s : State) : (entryInit s).hostData = s.hostData := rfl
@[simp] theorem entryInit_refusalMark (s : State) : (entryInit s).refusalMark = s.refusalMark := rfl
@[simp] theorem entryInit_freeReads (s : State) : (entryInit s).freeReads = s.freeReads := rfl
@[simp] theorem entryInit_epoch (s : State) : (entryInit s).epoch = s.epoch := rfl
@[simp] theorem entryInit_arg0 (s : State) : (entryInit s).arg0 = s.arg0 := rfl
@[simp] theorem entryInit_arg1 (s : State) : (entryInit s).arg1 = s.arg1 := rfl
@[simp] theorem entryInit_arg2 (s : State) : (entryInit s).arg2 = s.arg2 := rfl
@[simp] theorem entryInit_state (s : State) : (entryInit s).state = s.state := rfl
@[simp] theorem entryInit_dstate (s : State) : (entryInit s).dstate = if s.method = 0 then .raw else .blkHdr := rfl
@[simp] theorem entryInit_taint (s : State) : (entryInit s).taint = s.taint := rfl
@[simp] theorem entryInit_bfinal (s : State) : (entryInit s).bfinal = false := rfl
@[simp] theorem entryInit_btype (s : State) : (entryInit s).btype = 0 := rfl
@[simp] theorem entryInit_errcode (s : State) : (entryInit s).errcode = s.errcode := rfl
@[simp] theorem entryInit_errpos (s : State) : (entryInit s).errpos = s.errpos := rfl
@[simp] theorem entryInit_erraux (s : State) : (entryInit s).erraux = s.erraux := rfl
@[simp] theorem entryInit_method (s : State) : (entryInit s).method = s.method := rfl
@[simp] theorem entryInit_solid (s : State) : (entryInit s).solid = s.solid := rfl
@[simp] theorem entryInit_csize (s : State) : (entryInit s).csize = s.csize := rfl
@[simp] theorem entryInit_usize (s : State) : (entryInit s).usize = s.usize := rfl
@[simp] theorem entryInit_inRecv (s : State) : (entryInit s).inRecv = s.inRecv := rfl
@[simp] theorem entryInit_pos (s : State) : (entryInit s).pos = 0 := rfl
@[simp] theorem entryInit_npos (s : State) : (entryInit s).npos = 0 := rfl
@[simp] theorem entryInit_order (s : State) : (entryInit s).order = .lsb := rfl
@[simp] theorem entryInit_storedRem (s : State) : (entryInit s).storedRem = 0 := rfl
@[simp] theorem entryInit_hlit (s : State) : (entryInit s).hlit = 0 := rfl
@[simp] theorem entryInit_hdist (s : State) : (entryInit s).hdist = 0 := rfl
@[simp] theorem entryInit_hclen (s : State) : (entryInit s).hclen = 0 := rfl
@[simp] theorem entryInit_lens (s : State) : (entryInit s).lens = s.lens := rfl
@[simp] theorem entryInit_lidx (s : State) : (entryInit s).lidx = 0 := rfl
@[simp] theorem entryInit_mlen (s : State) : (entryInit s).mlen = 0 := rfl
@[simp] theorem entryInit_tCl (s : State) : (entryInit s).tCl = s.tCl.clear := rfl
@[simp] theorem entryInit_tLit (s : State) : (entryInit s).tLit = s.tLit.clear := rfl
@[simp] theorem entryInit_tDist (s : State) : (entryInit s).tDist = s.tDist.clear := rfl
@[simp] theorem entryInit_inp (s : State) : (entryInit s).inp = s.inp := rfl
@[simp] theorem entryInit_out (s : State) : (entryInit s).out = s.out := rfl
@[simp] theorem entryInit_outPtr (s : State) : (entryInit s).outPtr = 0 := rfl
@[simp] theorem entryInit_hist (s : State) : (entryInit s).hist = s.hist := rfl
@[simp] theorem entryInit_progFile (s : State) : (entryInit s).progFile = s.progFile := rfl
@[simp] theorem entryInit_progTotal (s : State) : (entryInit s).progTotal = s.progTotal := rfl
@[simp] theorem entryInit_filesDone (s : State) : (entryInit s).filesDone = s.filesDone := rfl
@[simp] theorem entryInit_evlog (s : State) : (entryInit s).evlog = s.evlog := rfl

/-! ## resume: Resume (44 R307) -/

@[simp] theorem resume_cfg (s : State) : (resume s).cfg = s.cfg := rfl
@[simp] theorem resume_sched (s : State) : (resume s).sched = s.sched := rfl
@[simp] theorem resume_hostData (s : State) : (resume s).hostData = s.hostData := rfl
@[simp] theorem resume_refusalMark (s : State) : (resume s).refusalMark = s.refusalMark := rfl
@[simp] theorem resume_freeReads (s : State) : (resume s).freeReads = s.freeReads := rfl
@[simp] theorem resume_epoch (s : State) : (resume s).epoch = s.epoch := rfl
@[simp] theorem resume_arg0 (s : State) : (resume s).arg0 = s.arg0 := rfl
@[simp] theorem resume_arg1 (s : State) : (resume s).arg1 = s.arg1 := rfl
@[simp] theorem resume_arg2 (s : State) : (resume s).arg2 = s.arg2 := rfl
@[simp] theorem resume_state (s : State) : (resume s).state = .run := rfl
@[simp] theorem resume_dstate (s : State) : (resume s).dstate = if s.method = 0 then .raw else .blkHdr := rfl
@[simp] theorem resume_taint (s : State) : (resume s).taint = s.taint := rfl
@[simp] theorem resume_bfinal (s : State) : (resume s).bfinal = false := rfl
@[simp] theorem resume_btype (s : State) : (resume s).btype = 0 := rfl
@[simp] theorem resume_errcode (s : State) : (resume s).errcode = 0 := rfl
@[simp] theorem resume_errpos (s : State) : (resume s).errpos = 0 := rfl
@[simp] theorem resume_erraux (s : State) : (resume s).erraux = 0 := rfl
@[simp] theorem resume_method (s : State) : (resume s).method = s.method := rfl
@[simp] theorem resume_solid (s : State) : (resume s).solid = s.solid := rfl
@[simp] theorem resume_csize (s : State) : (resume s).csize = s.csize := rfl
@[simp] theorem resume_usize (s : State) : (resume s).usize = s.usize := rfl
@[simp] theorem resume_inRecv (s : State) : (resume s).inRecv = s.inRecv := rfl
@[simp] theorem resume_pos (s : State) : (resume s).pos = 0 := rfl
@[simp] theorem resume_npos (s : State) : (resume s).npos = 0 := rfl
@[simp] theorem resume_order (s : State) : (resume s).order = .lsb := rfl
@[simp] theorem resume_storedRem (s : State) : (resume s).storedRem = 0 := rfl
@[simp] theorem resume_hlit (s : State) : (resume s).hlit = 0 := rfl
@[simp] theorem resume_hdist (s : State) : (resume s).hdist = 0 := rfl
@[simp] theorem resume_hclen (s : State) : (resume s).hclen = 0 := rfl
@[simp] theorem resume_lens (s : State) : (resume s).lens = s.lens := rfl
@[simp] theorem resume_lidx (s : State) : (resume s).lidx = 0 := rfl
@[simp] theorem resume_mlen (s : State) : (resume s).mlen = 0 := rfl
@[simp] theorem resume_tCl (s : State) : (resume s).tCl = s.tCl.clear := rfl
@[simp] theorem resume_tLit (s : State) : (resume s).tLit = s.tLit.clear := rfl
@[simp] theorem resume_tDist (s : State) : (resume s).tDist = s.tDist.clear := rfl
@[simp] theorem resume_inp (s : State) : (resume s).inp = s.inp := rfl
@[simp] theorem resume_out (s : State) : (resume s).out = s.out := rfl
@[simp] theorem resume_outPtr (s : State) : (resume s).outPtr = 0 := rfl
@[simp] theorem resume_hist (s : State) : (resume s).hist = s.hist := rfl
@[simp] theorem resume_progFile (s : State) : (resume s).progFile = s.progFile := rfl
@[simp] theorem resume_progTotal (s : State) : (resume s).progTotal = s.progTotal := rfl
@[simp] theorem resume_filesDone (s : State) : (resume s).filesDone = s.filesDone := rfl
@[simp] theorem resume_evlog (s : State) : (resume s).evlog = s.evlog := rfl

/-! ## sessionReset: OPEN and CLOSE (44 R302, R303) -/

@[simp] theorem sessionReset_cfg (d : EState) (s : State) : (sessionReset d s).cfg = s.cfg := rfl
@[simp] theorem sessionReset_sched (d : EState) (s : State) : (sessionReset d s).sched = s.sched := rfl
@[simp] theorem sessionReset_hostData (d : EState) (s : State) : (sessionReset d s).hostData = s.hostData := rfl
@[simp] theorem sessionReset_refusalMark (d : EState) (s : State) :
    (sessionReset d s).refusalMark = s.refusalMark := rfl
@[simp] theorem sessionReset_freeReads (d : EState) (s : State) : (sessionReset d s).freeReads = s.freeReads := rfl
@[simp] theorem sessionReset_epoch (d : EState) (s : State) : (sessionReset d s).epoch = s.epoch := rfl
@[simp] theorem sessionReset_arg0 (d : EState) (s : State) : (sessionReset d s).arg0 = s.arg0 := rfl
@[simp] theorem sessionReset_arg1 (d : EState) (s : State) : (sessionReset d s).arg1 = s.arg1 := rfl
@[simp] theorem sessionReset_arg2 (d : EState) (s : State) : (sessionReset d s).arg2 = s.arg2 := rfl
@[simp] theorem sessionReset_state (d : EState) (s : State) : (sessionReset d s).state = d := rfl
@[simp] theorem sessionReset_dstate (d : EState) (s : State) : (sessionReset d s).dstate = .none := rfl
@[simp] theorem sessionReset_taint (d : EState) (s : State) : (sessionReset d s).taint = false := rfl
@[simp] theorem sessionReset_bfinal (d : EState) (s : State) : (sessionReset d s).bfinal = false := rfl
@[simp] theorem sessionReset_btype (d : EState) (s : State) : (sessionReset d s).btype = 0 := rfl
@[simp] theorem sessionReset_errcode (d : EState) (s : State) : (sessionReset d s).errcode = 0 := rfl
@[simp] theorem sessionReset_errpos (d : EState) (s : State) : (sessionReset d s).errpos = 0 := rfl
@[simp] theorem sessionReset_erraux (d : EState) (s : State) : (sessionReset d s).erraux = 0 := rfl
@[simp] theorem sessionReset_method (d : EState) (s : State) : (sessionReset d s).method = 0 := rfl
@[simp] theorem sessionReset_solid (d : EState) (s : State) : (sessionReset d s).solid = false := rfl
@[simp] theorem sessionReset_csize (d : EState) (s : State) : (sessionReset d s).csize = 0 := rfl
@[simp] theorem sessionReset_usize (d : EState) (s : State) : (sessionReset d s).usize = 0 := rfl
@[simp] theorem sessionReset_inRecv (d : EState) (s : State) : (sessionReset d s).inRecv = 0 := rfl
@[simp] theorem sessionReset_pos (d : EState) (s : State) : (sessionReset d s).pos = 0 := rfl
@[simp] theorem sessionReset_npos (d : EState) (s : State) : (sessionReset d s).npos = 0 := rfl
@[simp] theorem sessionReset_order (d : EState) (s : State) : (sessionReset d s).order = .lsb := rfl
@[simp] theorem sessionReset_storedRem (d : EState) (s : State) : (sessionReset d s).storedRem = 0 := rfl
@[simp] theorem sessionReset_hlit (d : EState) (s : State) : (sessionReset d s).hlit = 0 := rfl
@[simp] theorem sessionReset_hdist (d : EState) (s : State) : (sessionReset d s).hdist = 0 := rfl
@[simp] theorem sessionReset_hclen (d : EState) (s : State) : (sessionReset d s).hclen = 0 := rfl
@[simp] theorem sessionReset_lens (d : EState) (s : State) : (sessionReset d s).lens = List.replicate 316 0 := rfl
@[simp] theorem sessionReset_lidx (d : EState) (s : State) : (sessionReset d s).lidx = 0 := rfl
@[simp] theorem sessionReset_mlen (d : EState) (s : State) : (sessionReset d s).mlen = 0 := rfl
@[simp] theorem sessionReset_tCl (d : EState) (s : State) : (sessionReset d s).tCl = HuffTable.unbuilt 19 := rfl
@[simp] theorem sessionReset_tLit (d : EState) (s : State) : (sessionReset d s).tLit = HuffTable.unbuilt 288 := rfl
@[simp] theorem sessionReset_tDist (d : EState) (s : State) : (sessionReset d s).tDist = HuffTable.unbuilt 32 := rfl
@[simp] theorem sessionReset_inp (d : EState) (s : State) : (sessionReset d s).inp = s.inp := rfl
@[simp] theorem sessionReset_out (d : EState) (s : State) : (sessionReset d s).out = s.out := rfl
@[simp] theorem sessionReset_outPtr (d : EState) (s : State) : (sessionReset d s).outPtr = 0 := rfl
@[simp] theorem sessionReset_hist (d : EState) (s : State) : (sessionReset d s).hist = [] := rfl
@[simp] theorem sessionReset_progFile (d : EState) (s : State) : (sessionReset d s).progFile = 0 := rfl
@[simp] theorem sessionReset_progTotal (d : EState) (s : State) : (sessionReset d s).progTotal = 0 := rfl
@[simp] theorem sessionReset_filesDone (d : EState) (s : State) : (sessionReset d s).filesDone = 0 := rfl
@[simp] theorem sessionReset_evlog (d : EState) (s : State) : (sessionReset d s).evlog = s.evlog := rfl

/-! ## hardReset: a hardware reset (70 R380) -/

@[simp] theorem hardReset_cfg (s : State) : (hardReset s).cfg = s.cfg := rfl
@[simp] theorem hardReset_sched (s : State) : (hardReset s).sched = s.sched := rfl
@[simp] theorem hardReset_hostData (s : State) : (hardReset s).hostData = s.hostData := rfl
@[simp] theorem hardReset_refusalMark (s : State) : (hardReset s).refusalMark = s.refusalMark := rfl
@[simp] theorem hardReset_freeReads (s : State) : (hardReset s).freeReads = s.freeReads := rfl
@[simp] theorem hardReset_epoch (s : State) : (hardReset s).epoch = s.epoch + 1 := rfl
@[simp] theorem hardReset_arg0 (s : State) : (hardReset s).arg0 = 0 := rfl
@[simp] theorem hardReset_arg1 (s : State) : (hardReset s).arg1 = 0 := rfl
@[simp] theorem hardReset_arg2 (s : State) : (hardReset s).arg2 = 0 := rfl
@[simp] theorem hardReset_state (s : State) : (hardReset s).state = .closed := rfl
@[simp] theorem hardReset_dstate (s : State) : (hardReset s).dstate = .none := rfl
@[simp] theorem hardReset_taint (s : State) : (hardReset s).taint = false := rfl
@[simp] theorem hardReset_bfinal (s : State) : (hardReset s).bfinal = false := rfl
@[simp] theorem hardReset_btype (s : State) : (hardReset s).btype = 0 := rfl
@[simp] theorem hardReset_errcode (s : State) : (hardReset s).errcode = 0 := rfl
@[simp] theorem hardReset_errpos (s : State) : (hardReset s).errpos = 0 := rfl
@[simp] theorem hardReset_erraux (s : State) : (hardReset s).erraux = 0 := rfl
@[simp] theorem hardReset_method (s : State) : (hardReset s).method = 0 := rfl
@[simp] theorem hardReset_solid (s : State) : (hardReset s).solid = false := rfl
@[simp] theorem hardReset_csize (s : State) : (hardReset s).csize = 0 := rfl
@[simp] theorem hardReset_usize (s : State) : (hardReset s).usize = 0 := rfl
@[simp] theorem hardReset_inRecv (s : State) : (hardReset s).inRecv = 0 := rfl
@[simp] theorem hardReset_pos (s : State) : (hardReset s).pos = 0 := rfl
@[simp] theorem hardReset_npos (s : State) : (hardReset s).npos = 0 := rfl
@[simp] theorem hardReset_order (s : State) : (hardReset s).order = .lsb := rfl
@[simp] theorem hardReset_storedRem (s : State) : (hardReset s).storedRem = 0 := rfl
@[simp] theorem hardReset_hlit (s : State) : (hardReset s).hlit = 0 := rfl
@[simp] theorem hardReset_hdist (s : State) : (hardReset s).hdist = 0 := rfl
@[simp] theorem hardReset_hclen (s : State) : (hardReset s).hclen = 0 := rfl
@[simp] theorem hardReset_lens (s : State) : (hardReset s).lens = List.replicate 316 0 := rfl
@[simp] theorem hardReset_lidx (s : State) : (hardReset s).lidx = 0 := rfl
@[simp] theorem hardReset_mlen (s : State) : (hardReset s).mlen = 0 := rfl
@[simp] theorem hardReset_tCl (s : State) : (hardReset s).tCl = HuffTable.unbuilt 19 := rfl
@[simp] theorem hardReset_tLit (s : State) : (hardReset s).tLit = HuffTable.unbuilt 288 := rfl
@[simp] theorem hardReset_tDist (s : State) : (hardReset s).tDist = HuffTable.unbuilt 32 := rfl
@[simp] theorem hardReset_inp (s : State) : (hardReset s).inp = [] := rfl
@[simp] theorem hardReset_out (s : State) : (hardReset s).out = [] := rfl
@[simp] theorem hardReset_outPtr (s : State) : (hardReset s).outPtr = 0 := rfl
@[simp] theorem hardReset_hist (s : State) : (hardReset s).hist = [] := rfl
@[simp] theorem hardReset_progFile (s : State) : (hardReset s).progFile = 0 := rfl
@[simp] theorem hardReset_progTotal (s : State) : (hardReset s).progTotal = 0 := rfl
@[simp] theorem hardReset_filesDone (s : State) : (hardReset s).filesDone = 0 := rfl
@[simp] theorem hardReset_evlog (s : State) : (hardReset s).evlog = [] := rfl

/-! ## counterUpdate: the counter update (44 R312) -/

@[simp] theorem counterUpdate_cfg (s : State) : (counterUpdate s).cfg = s.cfg := rfl
@[simp] theorem counterUpdate_sched (s : State) : (counterUpdate s).sched = s.sched := rfl
@[simp] theorem counterUpdate_hostData (s : State) : (counterUpdate s).hostData = s.hostData := rfl
@[simp] theorem counterUpdate_refusalMark (s : State) : (counterUpdate s).refusalMark = s.refusalMark := rfl
@[simp] theorem counterUpdate_freeReads (s : State) : (counterUpdate s).freeReads = s.freeReads := rfl
@[simp] theorem counterUpdate_epoch (s : State) : (counterUpdate s).epoch = s.epoch := rfl
@[simp] theorem counterUpdate_arg0 (s : State) : (counterUpdate s).arg0 = s.arg0 := rfl
@[simp] theorem counterUpdate_arg1 (s : State) : (counterUpdate s).arg1 = s.arg1 := rfl
@[simp] theorem counterUpdate_arg2 (s : State) : (counterUpdate s).arg2 = s.arg2 := rfl
@[simp] theorem counterUpdate_state (s : State) : (counterUpdate s).state = s.state := rfl
@[simp] theorem counterUpdate_dstate (s : State) : (counterUpdate s).dstate = s.dstate := rfl
@[simp] theorem counterUpdate_taint (s : State) : (counterUpdate s).taint = s.taint := rfl
@[simp] theorem counterUpdate_bfinal (s : State) : (counterUpdate s).bfinal = s.bfinal := rfl
@[simp] theorem counterUpdate_btype (s : State) : (counterUpdate s).btype = s.btype := rfl
@[simp] theorem counterUpdate_errcode (s : State) : (counterUpdate s).errcode = s.errcode := rfl
@[simp] theorem counterUpdate_errpos (s : State) : (counterUpdate s).errpos = s.errpos := rfl
@[simp] theorem counterUpdate_erraux (s : State) : (counterUpdate s).erraux = s.erraux := rfl
@[simp] theorem counterUpdate_method (s : State) : (counterUpdate s).method = s.method := rfl
@[simp] theorem counterUpdate_solid (s : State) : (counterUpdate s).solid = s.solid := rfl
@[simp] theorem counterUpdate_csize (s : State) : (counterUpdate s).csize = s.csize := rfl
@[simp] theorem counterUpdate_usize (s : State) : (counterUpdate s).usize = s.usize := rfl
@[simp] theorem counterUpdate_inRecv (s : State) : (counterUpdate s).inRecv = s.inRecv := rfl
@[simp] theorem counterUpdate_pos (s : State) : (counterUpdate s).pos = s.pos := rfl
@[simp] theorem counterUpdate_npos (s : State) : (counterUpdate s).npos = s.npos := rfl
@[simp] theorem counterUpdate_order (s : State) : (counterUpdate s).order = s.order := rfl
@[simp] theorem counterUpdate_storedRem (s : State) : (counterUpdate s).storedRem = s.storedRem := rfl
@[simp] theorem counterUpdate_hlit (s : State) : (counterUpdate s).hlit = s.hlit := rfl
@[simp] theorem counterUpdate_hdist (s : State) : (counterUpdate s).hdist = s.hdist := rfl
@[simp] theorem counterUpdate_hclen (s : State) : (counterUpdate s).hclen = s.hclen := rfl
@[simp] theorem counterUpdate_lens (s : State) : (counterUpdate s).lens = s.lens := rfl
@[simp] theorem counterUpdate_lidx (s : State) : (counterUpdate s).lidx = s.lidx := rfl
@[simp] theorem counterUpdate_mlen (s : State) : (counterUpdate s).mlen = s.mlen := rfl
@[simp] theorem counterUpdate_tCl (s : State) : (counterUpdate s).tCl = s.tCl := rfl
@[simp] theorem counterUpdate_tLit (s : State) : (counterUpdate s).tLit = s.tLit := rfl
@[simp] theorem counterUpdate_tDist (s : State) : (counterUpdate s).tDist = s.tDist := rfl
@[simp] theorem counterUpdate_inp (s : State) : (counterUpdate s).inp = s.inp := rfl
@[simp] theorem counterUpdate_out (s : State) : (counterUpdate s).out = s.out := rfl
@[simp] theorem counterUpdate_outPtr (s : State) : (counterUpdate s).outPtr = s.outPtr := rfl
@[simp] theorem counterUpdate_hist (s : State) : (counterUpdate s).hist = s.hist := rfl
@[simp] theorem counterUpdate_progFile (s : State) :
    (counterUpdate s).progFile = if s.progFile.toNat < s.outPtr.toNat then s.outPtr else s.progFile := rfl
@[simp] theorem counterUpdate_progTotal (s : State) : (counterUpdate s).progTotal =
      if s.progFile.toNat < s.outPtr.toNat then
        BitVec.ofNat 64 (s.progTotal.toNat + (s.outPtr.toNat - s.progFile.toNat))
      else s.progTotal := rfl
@[simp] theorem counterUpdate_filesDone (s : State) : (counterUpdate s).filesDone = s.filesDone := rfl
@[simp] theorem counterUpdate_evlog (s : State) : (counterUpdate s).evlog = s.evlog := rfl

/-! ## commitCursor: consuming an element (40 R145) -/

@[simp] theorem commitCursor_cfg (s : State) : (commitCursor s).cfg = s.cfg := rfl
@[simp] theorem commitCursor_sched (s : State) : (commitCursor s).sched = s.sched := rfl
@[simp] theorem commitCursor_hostData (s : State) : (commitCursor s).hostData = s.hostData := rfl
@[simp] theorem commitCursor_refusalMark (s : State) : (commitCursor s).refusalMark = s.refusalMark := rfl
@[simp] theorem commitCursor_freeReads (s : State) : (commitCursor s).freeReads = s.freeReads := rfl
@[simp] theorem commitCursor_epoch (s : State) : (commitCursor s).epoch = s.epoch := rfl
@[simp] theorem commitCursor_arg0 (s : State) : (commitCursor s).arg0 = s.arg0 := rfl
@[simp] theorem commitCursor_arg1 (s : State) : (commitCursor s).arg1 = s.arg1 := rfl
@[simp] theorem commitCursor_arg2 (s : State) : (commitCursor s).arg2 = s.arg2 := rfl
@[simp] theorem commitCursor_state (s : State) : (commitCursor s).state = s.state := rfl
@[simp] theorem commitCursor_dstate (s : State) : (commitCursor s).dstate = s.dstate := rfl
@[simp] theorem commitCursor_taint (s : State) : (commitCursor s).taint = s.taint := rfl
@[simp] theorem commitCursor_bfinal (s : State) : (commitCursor s).bfinal = s.bfinal := rfl
@[simp] theorem commitCursor_btype (s : State) : (commitCursor s).btype = s.btype := rfl
@[simp] theorem commitCursor_errcode (s : State) : (commitCursor s).errcode = s.errcode := rfl
@[simp] theorem commitCursor_errpos (s : State) : (commitCursor s).errpos = s.errpos := rfl
@[simp] theorem commitCursor_erraux (s : State) : (commitCursor s).erraux = s.erraux := rfl
@[simp] theorem commitCursor_method (s : State) : (commitCursor s).method = s.method := rfl
@[simp] theorem commitCursor_solid (s : State) : (commitCursor s).solid = s.solid := rfl
@[simp] theorem commitCursor_csize (s : State) : (commitCursor s).csize = s.csize := rfl
@[simp] theorem commitCursor_usize (s : State) : (commitCursor s).usize = s.usize := rfl
@[simp] theorem commitCursor_inRecv (s : State) : (commitCursor s).inRecv = s.inRecv := rfl
@[simp] theorem commitCursor_pos (s : State) : (commitCursor s).pos = s.npos := rfl
@[simp] theorem commitCursor_npos (s : State) : (commitCursor s).npos = s.npos := rfl
@[simp] theorem commitCursor_order (s : State) : (commitCursor s).order = s.order := rfl
@[simp] theorem commitCursor_storedRem (s : State) : (commitCursor s).storedRem = s.storedRem := rfl
@[simp] theorem commitCursor_hlit (s : State) : (commitCursor s).hlit = s.hlit := rfl
@[simp] theorem commitCursor_hdist (s : State) : (commitCursor s).hdist = s.hdist := rfl
@[simp] theorem commitCursor_hclen (s : State) : (commitCursor s).hclen = s.hclen := rfl
@[simp] theorem commitCursor_lens (s : State) : (commitCursor s).lens = s.lens := rfl
@[simp] theorem commitCursor_lidx (s : State) : (commitCursor s).lidx = s.lidx := rfl
@[simp] theorem commitCursor_mlen (s : State) : (commitCursor s).mlen = 0 := rfl
@[simp] theorem commitCursor_tCl (s : State) : (commitCursor s).tCl = s.tCl := rfl
@[simp] theorem commitCursor_tLit (s : State) : (commitCursor s).tLit = s.tLit := rfl
@[simp] theorem commitCursor_tDist (s : State) : (commitCursor s).tDist = s.tDist := rfl
@[simp] theorem commitCursor_inp (s : State) : (commitCursor s).inp = s.inp := rfl
@[simp] theorem commitCursor_out (s : State) : (commitCursor s).out = s.out := rfl
@[simp] theorem commitCursor_outPtr (s : State) : (commitCursor s).outPtr = s.outPtr := rfl
@[simp] theorem commitCursor_hist (s : State) : (commitCursor s).hist = s.hist := rfl
@[simp] theorem commitCursor_progFile (s : State) : (commitCursor s).progFile = s.progFile := rfl
@[simp] theorem commitCursor_progTotal (s : State) : (commitCursor s).progTotal = s.progTotal := rfl
@[simp] theorem commitCursor_filesDone (s : State) : (commitCursor s).filesDone = s.filesDone := rfl
@[simp] theorem commitCursor_evlog (s : State) : (commitCursor s).evlog = s.evlog := rfl

/-! ## putByte: the writes of OutAppend (42 R212) -/

@[simp] theorem putByte_cfg (b : Byte) (s : State) : (putByte b s).cfg = s.cfg := rfl
@[simp] theorem putByte_sched (b : Byte) (s : State) : (putByte b s).sched = s.sched := rfl
@[simp] theorem putByte_hostData (b : Byte) (s : State) : (putByte b s).hostData = s.hostData := rfl
@[simp] theorem putByte_refusalMark (b : Byte) (s : State) : (putByte b s).refusalMark = s.refusalMark := rfl
@[simp] theorem putByte_freeReads (b : Byte) (s : State) : (putByte b s).freeReads = s.freeReads := rfl
@[simp] theorem putByte_epoch (b : Byte) (s : State) : (putByte b s).epoch = s.epoch := rfl
@[simp] theorem putByte_arg0 (b : Byte) (s : State) : (putByte b s).arg0 = s.arg0 := rfl
@[simp] theorem putByte_arg1 (b : Byte) (s : State) : (putByte b s).arg1 = s.arg1 := rfl
@[simp] theorem putByte_arg2 (b : Byte) (s : State) : (putByte b s).arg2 = s.arg2 := rfl
@[simp] theorem putByte_state (b : Byte) (s : State) : (putByte b s).state = s.state := rfl
@[simp] theorem putByte_dstate (b : Byte) (s : State) : (putByte b s).dstate = s.dstate := rfl
@[simp] theorem putByte_taint (b : Byte) (s : State) : (putByte b s).taint = s.taint := rfl
@[simp] theorem putByte_bfinal (b : Byte) (s : State) : (putByte b s).bfinal = s.bfinal := rfl
@[simp] theorem putByte_btype (b : Byte) (s : State) : (putByte b s).btype = s.btype := rfl
@[simp] theorem putByte_errcode (b : Byte) (s : State) : (putByte b s).errcode = s.errcode := rfl
@[simp] theorem putByte_errpos (b : Byte) (s : State) : (putByte b s).errpos = s.errpos := rfl
@[simp] theorem putByte_erraux (b : Byte) (s : State) : (putByte b s).erraux = s.erraux := rfl
@[simp] theorem putByte_method (b : Byte) (s : State) : (putByte b s).method = s.method := rfl
@[simp] theorem putByte_solid (b : Byte) (s : State) : (putByte b s).solid = s.solid := rfl
@[simp] theorem putByte_csize (b : Byte) (s : State) : (putByte b s).csize = s.csize := rfl
@[simp] theorem putByte_usize (b : Byte) (s : State) : (putByte b s).usize = s.usize := rfl
@[simp] theorem putByte_inRecv (b : Byte) (s : State) : (putByte b s).inRecv = s.inRecv := rfl
@[simp] theorem putByte_pos (b : Byte) (s : State) : (putByte b s).pos = s.pos := rfl
@[simp] theorem putByte_npos (b : Byte) (s : State) : (putByte b s).npos = s.npos := rfl
@[simp] theorem putByte_order (b : Byte) (s : State) : (putByte b s).order = s.order := rfl
@[simp] theorem putByte_storedRem (b : Byte) (s : State) : (putByte b s).storedRem = s.storedRem := rfl
@[simp] theorem putByte_hlit (b : Byte) (s : State) : (putByte b s).hlit = s.hlit := rfl
@[simp] theorem putByte_hdist (b : Byte) (s : State) : (putByte b s).hdist = s.hdist := rfl
@[simp] theorem putByte_hclen (b : Byte) (s : State) : (putByte b s).hclen = s.hclen := rfl
@[simp] theorem putByte_lens (b : Byte) (s : State) : (putByte b s).lens = s.lens := rfl
@[simp] theorem putByte_lidx (b : Byte) (s : State) : (putByte b s).lidx = s.lidx := rfl
@[simp] theorem putByte_mlen (b : Byte) (s : State) : (putByte b s).mlen = s.mlen := rfl
@[simp] theorem putByte_tCl (b : Byte) (s : State) : (putByte b s).tCl = s.tCl := rfl
@[simp] theorem putByte_tLit (b : Byte) (s : State) : (putByte b s).tLit = s.tLit := rfl
@[simp] theorem putByte_tDist (b : Byte) (s : State) : (putByte b s).tDist = s.tDist := rfl
@[simp] theorem putByte_inp (b : Byte) (s : State) : (putByte b s).inp = s.inp := rfl
@[simp] theorem putByte_out (b : Byte) (s : State) : (putByte b s).out = s.out.write s.outPtr.toNat b := rfl
@[simp] theorem putByte_outPtr (b : Byte) (s : State) :
    (putByte b s).outPtr = BitVec.ofNat 32 (s.outPtr.toNat + 1) := rfl
@[simp] theorem putByte_hist (b : Byte) (s : State) : (putByte b s).hist = s.hist := rfl
@[simp] theorem putByte_progFile (b : Byte) (s : State) : (putByte b s).progFile = s.progFile := rfl
@[simp] theorem putByte_progTotal (b : Byte) (s : State) : (putByte b s).progTotal = s.progTotal := rfl
@[simp] theorem putByte_filesDone (b : Byte) (s : State) : (putByte b s).filesDone = s.filesDone := rfl
@[simp] theorem putByte_evlog (b : Byte) (s : State) : (putByte b s).evlog = s.evlog := rfl

/-! ## freeze: Freeze (42 R217) -/

@[simp] theorem freeze_cfg (s : State) : (freeze s).cfg = s.cfg := rfl
@[simp] theorem freeze_sched (s : State) : (freeze s).sched = s.sched := rfl
@[simp] theorem freeze_hostData (s : State) : (freeze s).hostData = s.hostData := rfl
@[simp] theorem freeze_refusalMark (s : State) : (freeze s).refusalMark = s.refusalMark := rfl
@[simp] theorem freeze_freeReads (s : State) : (freeze s).freeReads = s.freeReads := rfl
@[simp] theorem freeze_epoch (s : State) : (freeze s).epoch = s.epoch := rfl
@[simp] theorem freeze_arg0 (s : State) : (freeze s).arg0 = s.arg0 := rfl
@[simp] theorem freeze_arg1 (s : State) : (freeze s).arg1 = s.arg1 := rfl
@[simp] theorem freeze_arg2 (s : State) : (freeze s).arg2 = s.arg2 := rfl
@[simp] theorem freeze_state (s : State) : (freeze s).state = s.state := rfl
@[simp] theorem freeze_dstate (s : State) : (freeze s).dstate = s.dstate := rfl
@[simp] theorem freeze_taint (s : State) : (freeze s).taint = s.taint := rfl
@[simp] theorem freeze_bfinal (s : State) : (freeze s).bfinal = s.bfinal := rfl
@[simp] theorem freeze_btype (s : State) : (freeze s).btype = s.btype := rfl
@[simp] theorem freeze_errcode (s : State) : (freeze s).errcode = s.errcode := rfl
@[simp] theorem freeze_errpos (s : State) : (freeze s).errpos = s.errpos := rfl
@[simp] theorem freeze_erraux (s : State) : (freeze s).erraux = s.erraux := rfl
@[simp] theorem freeze_method (s : State) : (freeze s).method = s.method := rfl
@[simp] theorem freeze_solid (s : State) : (freeze s).solid = s.solid := rfl
@[simp] theorem freeze_csize (s : State) : (freeze s).csize = s.csize := rfl
@[simp] theorem freeze_usize (s : State) : (freeze s).usize = s.usize := rfl
@[simp] theorem freeze_inRecv (s : State) : (freeze s).inRecv = s.inRecv := rfl
@[simp] theorem freeze_pos (s : State) : (freeze s).pos = s.pos := rfl
@[simp] theorem freeze_npos (s : State) : (freeze s).npos = s.npos := rfl
@[simp] theorem freeze_order (s : State) : (freeze s).order = s.order := rfl
@[simp] theorem freeze_storedRem (s : State) : (freeze s).storedRem = s.storedRem := rfl
@[simp] theorem freeze_hlit (s : State) : (freeze s).hlit = s.hlit := rfl
@[simp] theorem freeze_hdist (s : State) : (freeze s).hdist = s.hdist := rfl
@[simp] theorem freeze_hclen (s : State) : (freeze s).hclen = s.hclen := rfl
@[simp] theorem freeze_lens (s : State) : (freeze s).lens = s.lens := rfl
@[simp] theorem freeze_lidx (s : State) : (freeze s).lidx = s.lidx := rfl
@[simp] theorem freeze_mlen (s : State) : (freeze s).mlen = s.mlen := rfl
@[simp] theorem freeze_tCl (s : State) : (freeze s).tCl = s.tCl := rfl
@[simp] theorem freeze_tLit (s : State) : (freeze s).tLit = s.tLit := rfl
@[simp] theorem freeze_tDist (s : State) : (freeze s).tDist = s.tDist := rfl
@[simp] theorem freeze_inp (s : State) : (freeze s).inp = s.inp := rfl
@[simp] theorem freeze_out (s : State) : (freeze s).out = s.out := rfl
@[simp] theorem freeze_outPtr (s : State) : (freeze s).outPtr = s.outPtr := rfl
@[simp] theorem freeze_hist (s : State) :
    (freeze s).hist = retain s.cfg.histRetain (s.hist ++ [outSlice s s.outPtr.toNat]) := rfl
@[simp] theorem freeze_progFile (s : State) : (freeze s).progFile = s.progFile := rfl
@[simp] theorem freeze_progTotal (s : State) : (freeze s).progTotal = s.progTotal := rfl
@[simp] theorem freeze_filesDone (s : State) : (freeze s).filesDone = s.filesDone := rfl
@[simp] theorem freeze_evlog (s : State) : (freeze s).evlog = s.evlog := rfl

/-! ## latchBlock: a block header (43 R242) -/

@[simp] theorem latchBlock_cfg (f : Bool) (t : BitVec 2) (d : DState) (s : State) :
    (latchBlock f t d s).cfg = s.cfg := rfl
@[simp] theorem latchBlock_sched (f : Bool) (t : BitVec 2) (d : DState) (s : State) :
    (latchBlock f t d s).sched = s.sched := rfl
@[simp] theorem latchBlock_hostData (f : Bool) (t : BitVec 2) (d : DState) (s : State) :
    (latchBlock f t d s).hostData = s.hostData := rfl
@[simp] theorem latchBlock_refusalMark (f : Bool) (t : BitVec 2) (d : DState) (s : State) :
    (latchBlock f t d s).refusalMark = s.refusalMark := rfl
@[simp] theorem latchBlock_freeReads (f : Bool) (t : BitVec 2) (d : DState) (s : State) :
    (latchBlock f t d s).freeReads = s.freeReads := rfl
@[simp] theorem latchBlock_epoch (f : Bool) (t : BitVec 2) (d : DState) (s : State) :
    (latchBlock f t d s).epoch = s.epoch := rfl
@[simp] theorem latchBlock_arg0 (f : Bool) (t : BitVec 2) (d : DState) (s : State) :
    (latchBlock f t d s).arg0 = s.arg0 := rfl
@[simp] theorem latchBlock_arg1 (f : Bool) (t : BitVec 2) (d : DState) (s : State) :
    (latchBlock f t d s).arg1 = s.arg1 := rfl
@[simp] theorem latchBlock_arg2 (f : Bool) (t : BitVec 2) (d : DState) (s : State) :
    (latchBlock f t d s).arg2 = s.arg2 := rfl
@[simp] theorem latchBlock_state (f : Bool) (t : BitVec 2) (d : DState) (s : State) :
    (latchBlock f t d s).state = s.state := rfl
@[simp] theorem latchBlock_dstate (f : Bool) (t : BitVec 2) (d : DState) (s : State) :
    (latchBlock f t d s).dstate = d := rfl
@[simp] theorem latchBlock_taint (f : Bool) (t : BitVec 2) (d : DState) (s : State) :
    (latchBlock f t d s).taint = s.taint := rfl
@[simp] theorem latchBlock_bfinal (f : Bool) (t : BitVec 2) (d : DState) (s : State) :
    (latchBlock f t d s).bfinal = f := rfl
@[simp] theorem latchBlock_btype (f : Bool) (t : BitVec 2) (d : DState) (s : State) :
    (latchBlock f t d s).btype = t := rfl
@[simp] theorem latchBlock_errcode (f : Bool) (t : BitVec 2) (d : DState) (s : State) :
    (latchBlock f t d s).errcode = s.errcode := rfl
@[simp] theorem latchBlock_errpos (f : Bool) (t : BitVec 2) (d : DState) (s : State) :
    (latchBlock f t d s).errpos = s.errpos := rfl
@[simp] theorem latchBlock_erraux (f : Bool) (t : BitVec 2) (d : DState) (s : State) :
    (latchBlock f t d s).erraux = s.erraux := rfl
@[simp] theorem latchBlock_method (f : Bool) (t : BitVec 2) (d : DState) (s : State) :
    (latchBlock f t d s).method = s.method := rfl
@[simp] theorem latchBlock_solid (f : Bool) (t : BitVec 2) (d : DState) (s : State) :
    (latchBlock f t d s).solid = s.solid := rfl
@[simp] theorem latchBlock_csize (f : Bool) (t : BitVec 2) (d : DState) (s : State) :
    (latchBlock f t d s).csize = s.csize := rfl
@[simp] theorem latchBlock_usize (f : Bool) (t : BitVec 2) (d : DState) (s : State) :
    (latchBlock f t d s).usize = s.usize := rfl
@[simp] theorem latchBlock_inRecv (f : Bool) (t : BitVec 2) (d : DState) (s : State) :
    (latchBlock f t d s).inRecv = s.inRecv := rfl
@[simp] theorem latchBlock_pos (f : Bool) (t : BitVec 2) (d : DState) (s : State) :
    (latchBlock f t d s).pos = s.pos := rfl
@[simp] theorem latchBlock_npos (f : Bool) (t : BitVec 2) (d : DState) (s : State) :
    (latchBlock f t d s).npos = s.npos := rfl
@[simp] theorem latchBlock_order (f : Bool) (t : BitVec 2) (d : DState) (s : State) :
    (latchBlock f t d s).order = s.order := rfl
@[simp] theorem latchBlock_storedRem (f : Bool) (t : BitVec 2) (d : DState) (s : State) :
    (latchBlock f t d s).storedRem = s.storedRem := rfl
@[simp] theorem latchBlock_hlit (f : Bool) (t : BitVec 2) (d : DState) (s : State) :
    (latchBlock f t d s).hlit = s.hlit := rfl
@[simp] theorem latchBlock_hdist (f : Bool) (t : BitVec 2) (d : DState) (s : State) :
    (latchBlock f t d s).hdist = s.hdist := rfl
@[simp] theorem latchBlock_hclen (f : Bool) (t : BitVec 2) (d : DState) (s : State) :
    (latchBlock f t d s).hclen = s.hclen := rfl
@[simp] theorem latchBlock_lens (f : Bool) (t : BitVec 2) (d : DState) (s : State) :
    (latchBlock f t d s).lens = s.lens := rfl
@[simp] theorem latchBlock_lidx (f : Bool) (t : BitVec 2) (d : DState) (s : State) :
    (latchBlock f t d s).lidx = s.lidx := rfl
@[simp] theorem latchBlock_mlen (f : Bool) (t : BitVec 2) (d : DState) (s : State) :
    (latchBlock f t d s).mlen = s.mlen := rfl
@[simp] theorem latchBlock_tCl (f : Bool) (t : BitVec 2) (d : DState) (s : State) :
    (latchBlock f t d s).tCl = s.tCl := rfl
@[simp] theorem latchBlock_tLit (f : Bool) (t : BitVec 2) (d : DState) (s : State) :
    (latchBlock f t d s).tLit = s.tLit := rfl
@[simp] theorem latchBlock_tDist (f : Bool) (t : BitVec 2) (d : DState) (s : State) :
    (latchBlock f t d s).tDist = s.tDist := rfl
@[simp] theorem latchBlock_inp (f : Bool) (t : BitVec 2) (d : DState) (s : State) :
    (latchBlock f t d s).inp = s.inp := rfl
@[simp] theorem latchBlock_out (f : Bool) (t : BitVec 2) (d : DState) (s : State) :
    (latchBlock f t d s).out = s.out := rfl
@[simp] theorem latchBlock_outPtr (f : Bool) (t : BitVec 2) (d : DState) (s : State) :
    (latchBlock f t d s).outPtr = s.outPtr := rfl
@[simp] theorem latchBlock_hist (f : Bool) (t : BitVec 2) (d : DState) (s : State) :
    (latchBlock f t d s).hist = s.hist := rfl
@[simp] theorem latchBlock_progFile (f : Bool) (t : BitVec 2) (d : DState) (s : State) :
    (latchBlock f t d s).progFile = s.progFile := rfl
@[simp] theorem latchBlock_progTotal (f : Bool) (t : BitVec 2) (d : DState) (s : State) :
    (latchBlock f t d s).progTotal = s.progTotal := rfl
@[simp] theorem latchBlock_filesDone (f : Bool) (t : BitVec 2) (d : DState) (s : State) :
    (latchBlock f t d s).filesDone = s.filesDone := rfl
@[simp] theorem latchBlock_evlog (f : Bool) (t : BitVec 2) (d : DState) (s : State) :
    (latchBlock f t d s).evlog = s.evlog := rfl

/-! ## loadFixed: LoadFixed (43 R243) -/

@[simp] theorem loadFixed_cfg (s : State) : (loadFixed s).cfg = s.cfg := rfl
@[simp] theorem loadFixed_sched (s : State) : (loadFixed s).sched = s.sched := rfl
@[simp] theorem loadFixed_hostData (s : State) : (loadFixed s).hostData = s.hostData := rfl
@[simp] theorem loadFixed_refusalMark (s : State) : (loadFixed s).refusalMark = s.refusalMark := rfl
@[simp] theorem loadFixed_freeReads (s : State) : (loadFixed s).freeReads = s.freeReads := rfl
@[simp] theorem loadFixed_epoch (s : State) : (loadFixed s).epoch = s.epoch := rfl
@[simp] theorem loadFixed_arg0 (s : State) : (loadFixed s).arg0 = s.arg0 := rfl
@[simp] theorem loadFixed_arg1 (s : State) : (loadFixed s).arg1 = s.arg1 := rfl
@[simp] theorem loadFixed_arg2 (s : State) : (loadFixed s).arg2 = s.arg2 := rfl
@[simp] theorem loadFixed_state (s : State) : (loadFixed s).state = s.state := rfl
@[simp] theorem loadFixed_dstate (s : State) : (loadFixed s).dstate = s.dstate := rfl
@[simp] theorem loadFixed_taint (s : State) : (loadFixed s).taint = s.taint := rfl
@[simp] theorem loadFixed_bfinal (s : State) : (loadFixed s).bfinal = s.bfinal := rfl
@[simp] theorem loadFixed_btype (s : State) : (loadFixed s).btype = s.btype := rfl
@[simp] theorem loadFixed_errcode (s : State) : (loadFixed s).errcode = s.errcode := rfl
@[simp] theorem loadFixed_errpos (s : State) : (loadFixed s).errpos = s.errpos := rfl
@[simp] theorem loadFixed_erraux (s : State) : (loadFixed s).erraux = s.erraux := rfl
@[simp] theorem loadFixed_method (s : State) : (loadFixed s).method = s.method := rfl
@[simp] theorem loadFixed_solid (s : State) : (loadFixed s).solid = s.solid := rfl
@[simp] theorem loadFixed_csize (s : State) : (loadFixed s).csize = s.csize := rfl
@[simp] theorem loadFixed_usize (s : State) : (loadFixed s).usize = s.usize := rfl
@[simp] theorem loadFixed_inRecv (s : State) : (loadFixed s).inRecv = s.inRecv := rfl
@[simp] theorem loadFixed_pos (s : State) : (loadFixed s).pos = s.pos := rfl
@[simp] theorem loadFixed_npos (s : State) : (loadFixed s).npos = s.npos := rfl
@[simp] theorem loadFixed_order (s : State) : (loadFixed s).order = s.order := rfl
@[simp] theorem loadFixed_storedRem (s : State) : (loadFixed s).storedRem = s.storedRem := rfl
@[simp] theorem loadFixed_hlit (s : State) : (loadFixed s).hlit = s.hlit := rfl
@[simp] theorem loadFixed_hdist (s : State) : (loadFixed s).hdist = s.hdist := rfl
@[simp] theorem loadFixed_hclen (s : State) : (loadFixed s).hclen = s.hclen := rfl
@[simp] theorem loadFixed_lens (s : State) : (loadFixed s).lens = s.lens := rfl
@[simp] theorem loadFixed_lidx (s : State) : (loadFixed s).lidx = s.lidx := rfl
@[simp] theorem loadFixed_mlen (s : State) : (loadFixed s).mlen = s.mlen := rfl
@[simp] theorem loadFixed_tCl (s : State) : (loadFixed s).tCl = s.tCl := rfl
@[simp] theorem loadFixed_tLit (s : State) : (loadFixed s).tLit = tFixLit := rfl
@[simp] theorem loadFixed_tDist (s : State) : (loadFixed s).tDist = tFixDist := rfl
@[simp] theorem loadFixed_inp (s : State) : (loadFixed s).inp = s.inp := rfl
@[simp] theorem loadFixed_out (s : State) : (loadFixed s).out = s.out := rfl
@[simp] theorem loadFixed_outPtr (s : State) : (loadFixed s).outPtr = s.outPtr := rfl
@[simp] theorem loadFixed_hist (s : State) : (loadFixed s).hist = s.hist := rfl
@[simp] theorem loadFixed_progFile (s : State) : (loadFixed s).progFile = s.progFile := rfl
@[simp] theorem loadFixed_progTotal (s : State) : (loadFixed s).progTotal = s.progTotal := rfl
@[simp] theorem loadFixed_filesDone (s : State) : (loadFixed s).filesDone = s.filesDone := rfl
@[simp] theorem loadFixed_evlog (s : State) : (loadFixed s).evlog = s.evlog := rfl

/-! ## writeRun: ApplyCLSymbol (41 R182) -/

@[simp] theorem writeRun_cfg (v : BitVec 4) (r : Nat) (s : State) : (writeRun v r s).cfg = s.cfg := rfl
@[simp] theorem writeRun_sched (v : BitVec 4) (r : Nat) (s : State) : (writeRun v r s).sched = s.sched := rfl
@[simp] theorem writeRun_hostData (v : BitVec 4) (r : Nat) (s : State) : (writeRun v r s).hostData = s.hostData := rfl
@[simp] theorem writeRun_refusalMark (v : BitVec 4) (r : Nat) (s : State) :
    (writeRun v r s).refusalMark = s.refusalMark := rfl
@[simp] theorem writeRun_freeReads (v : BitVec 4) (r : Nat) (s : State) :
    (writeRun v r s).freeReads = s.freeReads := rfl
@[simp] theorem writeRun_epoch (v : BitVec 4) (r : Nat) (s : State) : (writeRun v r s).epoch = s.epoch := rfl
@[simp] theorem writeRun_arg0 (v : BitVec 4) (r : Nat) (s : State) : (writeRun v r s).arg0 = s.arg0 := rfl
@[simp] theorem writeRun_arg1 (v : BitVec 4) (r : Nat) (s : State) : (writeRun v r s).arg1 = s.arg1 := rfl
@[simp] theorem writeRun_arg2 (v : BitVec 4) (r : Nat) (s : State) : (writeRun v r s).arg2 = s.arg2 := rfl
@[simp] theorem writeRun_state (v : BitVec 4) (r : Nat) (s : State) : (writeRun v r s).state = s.state := rfl
@[simp] theorem writeRun_dstate (v : BitVec 4) (r : Nat) (s : State) : (writeRun v r s).dstate = s.dstate := rfl
@[simp] theorem writeRun_taint (v : BitVec 4) (r : Nat) (s : State) : (writeRun v r s).taint = s.taint := rfl
@[simp] theorem writeRun_bfinal (v : BitVec 4) (r : Nat) (s : State) : (writeRun v r s).bfinal = s.bfinal := rfl
@[simp] theorem writeRun_btype (v : BitVec 4) (r : Nat) (s : State) : (writeRun v r s).btype = s.btype := rfl
@[simp] theorem writeRun_errcode (v : BitVec 4) (r : Nat) (s : State) : (writeRun v r s).errcode = s.errcode := rfl
@[simp] theorem writeRun_errpos (v : BitVec 4) (r : Nat) (s : State) : (writeRun v r s).errpos = s.errpos := rfl
@[simp] theorem writeRun_erraux (v : BitVec 4) (r : Nat) (s : State) : (writeRun v r s).erraux = s.erraux := rfl
@[simp] theorem writeRun_method (v : BitVec 4) (r : Nat) (s : State) : (writeRun v r s).method = s.method := rfl
@[simp] theorem writeRun_solid (v : BitVec 4) (r : Nat) (s : State) : (writeRun v r s).solid = s.solid := rfl
@[simp] theorem writeRun_csize (v : BitVec 4) (r : Nat) (s : State) : (writeRun v r s).csize = s.csize := rfl
@[simp] theorem writeRun_usize (v : BitVec 4) (r : Nat) (s : State) : (writeRun v r s).usize = s.usize := rfl
@[simp] theorem writeRun_inRecv (v : BitVec 4) (r : Nat) (s : State) : (writeRun v r s).inRecv = s.inRecv := rfl
@[simp] theorem writeRun_pos (v : BitVec 4) (r : Nat) (s : State) : (writeRun v r s).pos = s.pos := rfl
@[simp] theorem writeRun_npos (v : BitVec 4) (r : Nat) (s : State) : (writeRun v r s).npos = s.npos := rfl
@[simp] theorem writeRun_order (v : BitVec 4) (r : Nat) (s : State) : (writeRun v r s).order = s.order := rfl
@[simp] theorem writeRun_storedRem (v : BitVec 4) (r : Nat) (s : State) :
    (writeRun v r s).storedRem = s.storedRem := rfl
@[simp] theorem writeRun_hlit (v : BitVec 4) (r : Nat) (s : State) : (writeRun v r s).hlit = s.hlit := rfl
@[simp] theorem writeRun_hdist (v : BitVec 4) (r : Nat) (s : State) : (writeRun v r s).hdist = s.hdist := rfl
@[simp] theorem writeRun_hclen (v : BitVec 4) (r : Nat) (s : State) : (writeRun v r s).hclen = s.hclen := rfl
@[simp] theorem writeRun_lens (v : BitVec 4) (r : Nat) (s : State) :
    (writeRun v r s).lens = setRun s.lens s.lidx.toNat r v := rfl
@[simp] theorem writeRun_lidx (v : BitVec 4) (r : Nat) (s : State) :
    (writeRun v r s).lidx = BitVec.ofNat 9 (s.lidx.toNat + r) := rfl
@[simp] theorem writeRun_mlen (v : BitVec 4) (r : Nat) (s : State) : (writeRun v r s).mlen = s.mlen := rfl
@[simp] theorem writeRun_tCl (v : BitVec 4) (r : Nat) (s : State) : (writeRun v r s).tCl = s.tCl := rfl
@[simp] theorem writeRun_tLit (v : BitVec 4) (r : Nat) (s : State) : (writeRun v r s).tLit = s.tLit := rfl
@[simp] theorem writeRun_tDist (v : BitVec 4) (r : Nat) (s : State) : (writeRun v r s).tDist = s.tDist := rfl
@[simp] theorem writeRun_inp (v : BitVec 4) (r : Nat) (s : State) : (writeRun v r s).inp = s.inp := rfl
@[simp] theorem writeRun_out (v : BitVec 4) (r : Nat) (s : State) : (writeRun v r s).out = s.out := rfl
@[simp] theorem writeRun_outPtr (v : BitVec 4) (r : Nat) (s : State) : (writeRun v r s).outPtr = s.outPtr := rfl
@[simp] theorem writeRun_hist (v : BitVec 4) (r : Nat) (s : State) : (writeRun v r s).hist = s.hist := rfl
@[simp] theorem writeRun_progFile (v : BitVec 4) (r : Nat) (s : State) : (writeRun v r s).progFile = s.progFile := rfl
@[simp] theorem writeRun_progTotal (v : BitVec 4) (r : Nat) (s : State) :
    (writeRun v r s).progTotal = s.progTotal := rfl
@[simp] theorem writeRun_filesDone (v : BitVec 4) (r : Nat) (s : State) :
    (writeRun v r s).filesDone = s.filesDone := rfl
@[simp] theorem writeRun_evlog (v : BitVec 4) (r : Nat) (s : State) : (writeRun v r s).evlog = s.evlog := rfl

/-! ## countStored: a stored byte counted (43 R245) -/

@[simp] theorem countStored_cfg (s : State) : (countStored s).cfg = s.cfg := rfl
@[simp] theorem countStored_sched (s : State) : (countStored s).sched = s.sched := rfl
@[simp] theorem countStored_hostData (s : State) : (countStored s).hostData = s.hostData := rfl
@[simp] theorem countStored_refusalMark (s : State) : (countStored s).refusalMark = s.refusalMark := rfl
@[simp] theorem countStored_freeReads (s : State) : (countStored s).freeReads = s.freeReads := rfl
@[simp] theorem countStored_epoch (s : State) : (countStored s).epoch = s.epoch := rfl
@[simp] theorem countStored_arg0 (s : State) : (countStored s).arg0 = s.arg0 := rfl
@[simp] theorem countStored_arg1 (s : State) : (countStored s).arg1 = s.arg1 := rfl
@[simp] theorem countStored_arg2 (s : State) : (countStored s).arg2 = s.arg2 := rfl
@[simp] theorem countStored_state (s : State) : (countStored s).state = s.state := rfl
@[simp] theorem countStored_dstate (s : State) : (countStored s).dstate = s.dstate := rfl
@[simp] theorem countStored_taint (s : State) : (countStored s).taint = s.taint := rfl
@[simp] theorem countStored_bfinal (s : State) : (countStored s).bfinal = s.bfinal := rfl
@[simp] theorem countStored_btype (s : State) : (countStored s).btype = s.btype := rfl
@[simp] theorem countStored_errcode (s : State) : (countStored s).errcode = s.errcode := rfl
@[simp] theorem countStored_errpos (s : State) : (countStored s).errpos = s.errpos := rfl
@[simp] theorem countStored_erraux (s : State) : (countStored s).erraux = s.erraux := rfl
@[simp] theorem countStored_method (s : State) : (countStored s).method = s.method := rfl
@[simp] theorem countStored_solid (s : State) : (countStored s).solid = s.solid := rfl
@[simp] theorem countStored_csize (s : State) : (countStored s).csize = s.csize := rfl
@[simp] theorem countStored_usize (s : State) : (countStored s).usize = s.usize := rfl
@[simp] theorem countStored_inRecv (s : State) : (countStored s).inRecv = s.inRecv := rfl
@[simp] theorem countStored_pos (s : State) : (countStored s).pos = s.pos := rfl
@[simp] theorem countStored_npos (s : State) : (countStored s).npos = s.npos := rfl
@[simp] theorem countStored_order (s : State) : (countStored s).order = s.order := rfl
@[simp] theorem countStored_storedRem (s : State) :
    (countStored s).storedRem = BitVec.ofNat 16 (s.storedRem.toNat - 1) := rfl
@[simp] theorem countStored_hlit (s : State) : (countStored s).hlit = s.hlit := rfl
@[simp] theorem countStored_hdist (s : State) : (countStored s).hdist = s.hdist := rfl
@[simp] theorem countStored_hclen (s : State) : (countStored s).hclen = s.hclen := rfl
@[simp] theorem countStored_lens (s : State) : (countStored s).lens = s.lens := rfl
@[simp] theorem countStored_lidx (s : State) : (countStored s).lidx = s.lidx := rfl
@[simp] theorem countStored_mlen (s : State) : (countStored s).mlen = s.mlen := rfl
@[simp] theorem countStored_tCl (s : State) : (countStored s).tCl = s.tCl := rfl
@[simp] theorem countStored_tLit (s : State) : (countStored s).tLit = s.tLit := rfl
@[simp] theorem countStored_tDist (s : State) : (countStored s).tDist = s.tDist := rfl
@[simp] theorem countStored_inp (s : State) : (countStored s).inp = s.inp := rfl
@[simp] theorem countStored_out (s : State) : (countStored s).out = s.out := rfl
@[simp] theorem countStored_outPtr (s : State) : (countStored s).outPtr = s.outPtr := rfl
@[simp] theorem countStored_hist (s : State) : (countStored s).hist = s.hist := rfl
@[simp] theorem countStored_progFile (s : State) : (countStored s).progFile = s.progFile := rfl
@[simp] theorem countStored_progTotal (s : State) : (countStored s).progTotal = s.progTotal := rfl
@[simp] theorem countStored_filesDone (s : State) : (countStored s).filesDone = s.filesDone := rfl
@[simp] theorem countStored_evlog (s : State) : (countStored s).evlog = s.evlog := rfl

/-! ## deliver: delivered input (44 R306) -/

@[simp] theorem deliver_cfg (k : Nat) (s : State) : (deliver k s).cfg = s.cfg := rfl
@[simp] theorem deliver_sched (k : Nat) (s : State) : (deliver k s).sched = s.sched := rfl
@[simp] theorem deliver_hostData (k : Nat) (s : State) : (deliver k s).hostData = s.hostData := rfl
@[simp] theorem deliver_refusalMark (k : Nat) (s : State) : (deliver k s).refusalMark = s.refusalMark := rfl
@[simp] theorem deliver_freeReads (k : Nat) (s : State) : (deliver k s).freeReads = s.freeReads := rfl
@[simp] theorem deliver_epoch (k : Nat) (s : State) : (deliver k s).epoch = s.epoch := rfl
@[simp] theorem deliver_arg0 (k : Nat) (s : State) : (deliver k s).arg0 = s.arg0 := rfl
@[simp] theorem deliver_arg1 (k : Nat) (s : State) : (deliver k s).arg1 = s.arg1 := rfl
@[simp] theorem deliver_arg2 (k : Nat) (s : State) : (deliver k s).arg2 = s.arg2 := rfl
@[simp] theorem deliver_state (k : Nat) (s : State) : (deliver k s).state = s.state := rfl
@[simp] theorem deliver_dstate (k : Nat) (s : State) : (deliver k s).dstate = s.dstate := rfl
@[simp] theorem deliver_taint (k : Nat) (s : State) : (deliver k s).taint = s.taint := rfl
@[simp] theorem deliver_bfinal (k : Nat) (s : State) : (deliver k s).bfinal = s.bfinal := rfl
@[simp] theorem deliver_btype (k : Nat) (s : State) : (deliver k s).btype = s.btype := rfl
@[simp] theorem deliver_errcode (k : Nat) (s : State) : (deliver k s).errcode = s.errcode := rfl
@[simp] theorem deliver_errpos (k : Nat) (s : State) : (deliver k s).errpos = s.errpos := rfl
@[simp] theorem deliver_erraux (k : Nat) (s : State) : (deliver k s).erraux = s.erraux := rfl
@[simp] theorem deliver_method (k : Nat) (s : State) : (deliver k s).method = s.method := rfl
@[simp] theorem deliver_solid (k : Nat) (s : State) : (deliver k s).solid = s.solid := rfl
@[simp] theorem deliver_csize (k : Nat) (s : State) : (deliver k s).csize = s.csize := rfl
@[simp] theorem deliver_usize (k : Nat) (s : State) : (deliver k s).usize = s.usize := rfl
@[simp] theorem deliver_inRecv (k : Nat) (s : State) :
    (deliver k s).inRecv = BitVec.ofNat 32 (s.inRecv.toNat + k) := rfl
@[simp] theorem deliver_pos (k : Nat) (s : State) : (deliver k s).pos = s.pos := rfl
@[simp] theorem deliver_npos (k : Nat) (s : State) : (deliver k s).npos = s.npos := rfl
@[simp] theorem deliver_order (k : Nat) (s : State) : (deliver k s).order = s.order := rfl
@[simp] theorem deliver_storedRem (k : Nat) (s : State) : (deliver k s).storedRem = s.storedRem := rfl
@[simp] theorem deliver_hlit (k : Nat) (s : State) : (deliver k s).hlit = s.hlit := rfl
@[simp] theorem deliver_hdist (k : Nat) (s : State) : (deliver k s).hdist = s.hdist := rfl
@[simp] theorem deliver_hclen (k : Nat) (s : State) : (deliver k s).hclen = s.hclen := rfl
@[simp] theorem deliver_lens (k : Nat) (s : State) : (deliver k s).lens = s.lens := rfl
@[simp] theorem deliver_lidx (k : Nat) (s : State) : (deliver k s).lidx = s.lidx := rfl
@[simp] theorem deliver_mlen (k : Nat) (s : State) : (deliver k s).mlen = s.mlen := rfl
@[simp] theorem deliver_tCl (k : Nat) (s : State) : (deliver k s).tCl = s.tCl := rfl
@[simp] theorem deliver_tLit (k : Nat) (s : State) : (deliver k s).tLit = s.tLit := rfl
@[simp] theorem deliver_tDist (k : Nat) (s : State) : (deliver k s).tDist = s.tDist := rfl
@[simp] theorem deliver_inp (k : Nat) (s : State) : (deliver k s).inp = s.inp := rfl
@[simp] theorem deliver_out (k : Nat) (s : State) : (deliver k s).out = s.out := rfl
@[simp] theorem deliver_outPtr (k : Nat) (s : State) : (deliver k s).outPtr = s.outPtr := rfl
@[simp] theorem deliver_hist (k : Nat) (s : State) : (deliver k s).hist = s.hist := rfl
@[simp] theorem deliver_progFile (k : Nat) (s : State) : (deliver k s).progFile = s.progFile := rfl
@[simp] theorem deliver_progTotal (k : Nat) (s : State) : (deliver k s).progTotal = s.progTotal := rfl
@[simp] theorem deliver_filesDone (k : Nat) (s : State) : (deliver k s).filesDone = s.filesDone := rfl
@[simp] theorem deliver_evlog (k : Nat) (s : State) : (deliver k s).evlog = s.evlog := rfl

/-! ## beginEntry: an accepted START_ENTRY (44 R304) -/

@[simp] theorem beginEntry_cfg (m : BitVec 8) (b : Bool) (c u : Word) (s : State) :
    (beginEntry m b c u s).cfg = s.cfg := rfl
@[simp] theorem beginEntry_sched (m : BitVec 8) (b : Bool) (c u : Word) (s : State) :
    (beginEntry m b c u s).sched = s.sched := rfl
@[simp] theorem beginEntry_hostData (m : BitVec 8) (b : Bool) (c u : Word) (s : State) :
    (beginEntry m b c u s).hostData = s.hostData := rfl
@[simp] theorem beginEntry_refusalMark (m : BitVec 8) (b : Bool) (c u : Word) (s : State) :
    (beginEntry m b c u s).refusalMark = s.refusalMark := rfl
@[simp] theorem beginEntry_freeReads (m : BitVec 8) (b : Bool) (c u : Word) (s : State) :
    (beginEntry m b c u s).freeReads = s.freeReads := rfl
@[simp] theorem beginEntry_epoch (m : BitVec 8) (b : Bool) (c u : Word) (s : State) :
    (beginEntry m b c u s).epoch = s.epoch := rfl
@[simp] theorem beginEntry_arg0 (m : BitVec 8) (b : Bool) (c u : Word) (s : State) :
    (beginEntry m b c u s).arg0 = s.arg0 := rfl
@[simp] theorem beginEntry_arg1 (m : BitVec 8) (b : Bool) (c u : Word) (s : State) :
    (beginEntry m b c u s).arg1 = s.arg1 := rfl
@[simp] theorem beginEntry_arg2 (m : BitVec 8) (b : Bool) (c u : Word) (s : State) :
    (beginEntry m b c u s).arg2 = s.arg2 := rfl
@[simp] theorem beginEntry_state (m : BitVec 8) (b : Bool) (c u : Word) (s : State) :
    (beginEntry m b c u s).state = .run := rfl
@[simp] theorem beginEntry_dstate (m : BitVec 8) (b : Bool) (c u : Word) (s : State) :
    (beginEntry m b c u s).dstate = if m = 0 then .raw else .blkHdr := rfl
@[simp] theorem beginEntry_taint (m : BitVec 8) (b : Bool) (c u : Word) (s : State) :
    (beginEntry m b c u s).taint = s.taint := rfl
@[simp] theorem beginEntry_bfinal (m : BitVec 8) (b : Bool) (c u : Word) (s : State) :
    (beginEntry m b c u s).bfinal = false := rfl
@[simp] theorem beginEntry_btype (m : BitVec 8) (b : Bool) (c u : Word) (s : State) :
    (beginEntry m b c u s).btype = 0 := rfl
@[simp] theorem beginEntry_errcode (m : BitVec 8) (b : Bool) (c u : Word) (s : State) :
    (beginEntry m b c u s).errcode = 0 := rfl
@[simp] theorem beginEntry_errpos (m : BitVec 8) (b : Bool) (c u : Word) (s : State) :
    (beginEntry m b c u s).errpos = 0 := rfl
@[simp] theorem beginEntry_erraux (m : BitVec 8) (b : Bool) (c u : Word) (s : State) :
    (beginEntry m b c u s).erraux = 0 := rfl
@[simp] theorem beginEntry_method (m : BitVec 8) (b : Bool) (c u : Word) (s : State) :
    (beginEntry m b c u s).method = m := rfl
@[simp] theorem beginEntry_solid (m : BitVec 8) (b : Bool) (c u : Word) (s : State) :
    (beginEntry m b c u s).solid = b := rfl
@[simp] theorem beginEntry_csize (m : BitVec 8) (b : Bool) (c u : Word) (s : State) :
    (beginEntry m b c u s).csize = c := rfl
@[simp] theorem beginEntry_usize (m : BitVec 8) (b : Bool) (c u : Word) (s : State) :
    (beginEntry m b c u s).usize = u := rfl
@[simp] theorem beginEntry_inRecv (m : BitVec 8) (b : Bool) (c u : Word) (s : State) :
    (beginEntry m b c u s).inRecv = 0 := rfl
@[simp] theorem beginEntry_pos (m : BitVec 8) (b : Bool) (c u : Word) (s : State) :
    (beginEntry m b c u s).pos = 0 := rfl
@[simp] theorem beginEntry_npos (m : BitVec 8) (b : Bool) (c u : Word) (s : State) :
    (beginEntry m b c u s).npos = 0 := rfl
@[simp] theorem beginEntry_order (m : BitVec 8) (b : Bool) (c u : Word) (s : State) :
    (beginEntry m b c u s).order = .lsb := rfl
@[simp] theorem beginEntry_storedRem (m : BitVec 8) (b : Bool) (c u : Word) (s : State) :
    (beginEntry m b c u s).storedRem = 0 := rfl
@[simp] theorem beginEntry_hlit (m : BitVec 8) (b : Bool) (c u : Word) (s : State) :
    (beginEntry m b c u s).hlit = 0 := rfl
@[simp] theorem beginEntry_hdist (m : BitVec 8) (b : Bool) (c u : Word) (s : State) :
    (beginEntry m b c u s).hdist = 0 := rfl
@[simp] theorem beginEntry_hclen (m : BitVec 8) (b : Bool) (c u : Word) (s : State) :
    (beginEntry m b c u s).hclen = 0 := rfl
@[simp] theorem beginEntry_lens (m : BitVec 8) (b : Bool) (c u : Word) (s : State) :
    (beginEntry m b c u s).lens = s.lens := rfl
@[simp] theorem beginEntry_lidx (m : BitVec 8) (b : Bool) (c u : Word) (s : State) :
    (beginEntry m b c u s).lidx = 0 := rfl
@[simp] theorem beginEntry_mlen (m : BitVec 8) (b : Bool) (c u : Word) (s : State) :
    (beginEntry m b c u s).mlen = 0 := rfl
@[simp] theorem beginEntry_tCl (m : BitVec 8) (b : Bool) (c u : Word) (s : State) :
    (beginEntry m b c u s).tCl = s.tCl.clear := rfl
@[simp] theorem beginEntry_tLit (m : BitVec 8) (b : Bool) (c u : Word) (s : State) :
    (beginEntry m b c u s).tLit = s.tLit.clear := rfl
@[simp] theorem beginEntry_tDist (m : BitVec 8) (b : Bool) (c u : Word) (s : State) :
    (beginEntry m b c u s).tDist = s.tDist.clear := rfl
@[simp] theorem beginEntry_inp (m : BitVec 8) (b : Bool) (c u : Word) (s : State) :
    (beginEntry m b c u s).inp = s.inp := rfl
@[simp] theorem beginEntry_out (m : BitVec 8) (b : Bool) (c u : Word) (s : State) :
    (beginEntry m b c u s).out = s.out := rfl
@[simp] theorem beginEntry_outPtr (m : BitVec 8) (b : Bool) (c u : Word) (s : State) :
    (beginEntry m b c u s).outPtr = 0 := rfl
@[simp] theorem beginEntry_hist (m : BitVec 8) (b : Bool) (c u : Word) (s : State) :
    (beginEntry m b c u s).hist = s.hist := rfl
@[simp] theorem beginEntry_progFile (m : BitVec 8) (b : Bool) (c u : Word) (s : State) :
    (beginEntry m b c u s).progFile = 0 := rfl
@[simp] theorem beginEntry_progTotal (m : BitVec 8) (b : Bool) (c u : Word) (s : State) :
    (beginEntry m b c u s).progTotal = s.progTotal := rfl
@[simp] theorem beginEntry_filesDone (m : BitVec 8) (b : Bool) (c u : Word) (s : State) :
    (beginEntry m b c u s).filesDone = s.filesDone := rfl
@[simp] theorem beginEntry_evlog (m : BitVec 8) (b : Bool) (c u : Word) (s : State) :
    (beginEntry m b c u s).evlog = s.evlog := rfl

/-! ## refuseAccess: a refused access (70 R390-R392) -/

@[simp] theorem refuseAccess_cfg (w : Forbidden) (s : State) : (refuseAccess w s).cfg = s.cfg := rfl
@[simp] theorem refuseAccess_sched (w : Forbidden) (s : State) : (refuseAccess w s).sched = s.sched := rfl
@[simp] theorem refuseAccess_hostData (w : Forbidden) (s : State) : (refuseAccess w s).hostData = s.hostData := rfl
@[simp] theorem refuseAccess_refusalMark (w : Forbidden) (s : State) :
    (refuseAccess w s).refusalMark = s.refusalMark.or (some w) := rfl
@[simp] theorem refuseAccess_freeReads (w : Forbidden) (s : State) : (refuseAccess w s).freeReads = s.freeReads := rfl
@[simp] theorem refuseAccess_epoch (w : Forbidden) (s : State) : (refuseAccess w s).epoch = s.epoch := rfl
@[simp] theorem refuseAccess_arg0 (w : Forbidden) (s : State) : (refuseAccess w s).arg0 = s.arg0 := rfl
@[simp] theorem refuseAccess_arg1 (w : Forbidden) (s : State) : (refuseAccess w s).arg1 = s.arg1 := rfl
@[simp] theorem refuseAccess_arg2 (w : Forbidden) (s : State) : (refuseAccess w s).arg2 = s.arg2 := rfl
@[simp] theorem refuseAccess_state (w : Forbidden) (s : State) : (refuseAccess w s).state = s.state := rfl
@[simp] theorem refuseAccess_dstate (w : Forbidden) (s : State) : (refuseAccess w s).dstate = s.dstate := rfl
@[simp] theorem refuseAccess_taint (w : Forbidden) (s : State) : (refuseAccess w s).taint = s.taint := rfl
@[simp] theorem refuseAccess_bfinal (w : Forbidden) (s : State) : (refuseAccess w s).bfinal = s.bfinal := rfl
@[simp] theorem refuseAccess_btype (w : Forbidden) (s : State) : (refuseAccess w s).btype = s.btype := rfl
@[simp] theorem refuseAccess_errcode (w : Forbidden) (s : State) : (refuseAccess w s).errcode = s.errcode := rfl
@[simp] theorem refuseAccess_errpos (w : Forbidden) (s : State) : (refuseAccess w s).errpos = s.errpos := rfl
@[simp] theorem refuseAccess_erraux (w : Forbidden) (s : State) : (refuseAccess w s).erraux = s.erraux := rfl
@[simp] theorem refuseAccess_method (w : Forbidden) (s : State) : (refuseAccess w s).method = s.method := rfl
@[simp] theorem refuseAccess_solid (w : Forbidden) (s : State) : (refuseAccess w s).solid = s.solid := rfl
@[simp] theorem refuseAccess_csize (w : Forbidden) (s : State) : (refuseAccess w s).csize = s.csize := rfl
@[simp] theorem refuseAccess_usize (w : Forbidden) (s : State) : (refuseAccess w s).usize = s.usize := rfl
@[simp] theorem refuseAccess_inRecv (w : Forbidden) (s : State) : (refuseAccess w s).inRecv = s.inRecv := rfl
@[simp] theorem refuseAccess_pos (w : Forbidden) (s : State) : (refuseAccess w s).pos = s.pos := rfl
@[simp] theorem refuseAccess_npos (w : Forbidden) (s : State) : (refuseAccess w s).npos = s.npos := rfl
@[simp] theorem refuseAccess_order (w : Forbidden) (s : State) : (refuseAccess w s).order = s.order := rfl
@[simp] theorem refuseAccess_storedRem (w : Forbidden) (s : State) : (refuseAccess w s).storedRem = s.storedRem := rfl
@[simp] theorem refuseAccess_hlit (w : Forbidden) (s : State) : (refuseAccess w s).hlit = s.hlit := rfl
@[simp] theorem refuseAccess_hdist (w : Forbidden) (s : State) : (refuseAccess w s).hdist = s.hdist := rfl
@[simp] theorem refuseAccess_hclen (w : Forbidden) (s : State) : (refuseAccess w s).hclen = s.hclen := rfl
@[simp] theorem refuseAccess_lens (w : Forbidden) (s : State) : (refuseAccess w s).lens = s.lens := rfl
@[simp] theorem refuseAccess_lidx (w : Forbidden) (s : State) : (refuseAccess w s).lidx = s.lidx := rfl
@[simp] theorem refuseAccess_mlen (w : Forbidden) (s : State) : (refuseAccess w s).mlen = s.mlen := rfl
@[simp] theorem refuseAccess_tCl (w : Forbidden) (s : State) : (refuseAccess w s).tCl = s.tCl := rfl
@[simp] theorem refuseAccess_tLit (w : Forbidden) (s : State) : (refuseAccess w s).tLit = s.tLit := rfl
@[simp] theorem refuseAccess_tDist (w : Forbidden) (s : State) : (refuseAccess w s).tDist = s.tDist := rfl
@[simp] theorem refuseAccess_inp (w : Forbidden) (s : State) : (refuseAccess w s).inp = s.inp := rfl
@[simp] theorem refuseAccess_out (w : Forbidden) (s : State) : (refuseAccess w s).out = s.out := rfl
@[simp] theorem refuseAccess_outPtr (w : Forbidden) (s : State) : (refuseAccess w s).outPtr = s.outPtr := rfl
@[simp] theorem refuseAccess_hist (w : Forbidden) (s : State) : (refuseAccess w s).hist = s.hist := rfl
@[simp] theorem refuseAccess_progFile (w : Forbidden) (s : State) : (refuseAccess w s).progFile = s.progFile := rfl
@[simp] theorem refuseAccess_progTotal (w : Forbidden) (s : State) : (refuseAccess w s).progTotal = s.progTotal := rfl
@[simp] theorem refuseAccess_filesDone (w : Forbidden) (s : State) : (refuseAccess w s).filesDone = s.filesDone := rfl
@[simp] theorem refuseAccess_evlog (w : Forbidden) (s : State) : (refuseAccess w s).evlog = s.evlog := rfl

/-! ## answerHost: a host read (44 R309, R311) -/

@[simp] theorem answerHost_cfg (v : Word) (s : State) : (answerHost v s).cfg = s.cfg := rfl
@[simp] theorem answerHost_sched (v : Word) (s : State) : (answerHost v s).sched = s.sched := rfl
@[simp] theorem answerHost_hostData (v : Word) (s : State) : (answerHost v s).hostData = v := rfl
@[simp] theorem answerHost_refusalMark (v : Word) (s : State) : (answerHost v s).refusalMark = s.refusalMark := rfl
@[simp] theorem answerHost_freeReads (v : Word) (s : State) : (answerHost v s).freeReads = s.freeReads := rfl
@[simp] theorem answerHost_epoch (v : Word) (s : State) : (answerHost v s).epoch = s.epoch := rfl
@[simp] theorem answerHost_arg0 (v : Word) (s : State) : (answerHost v s).arg0 = s.arg0 := rfl
@[simp] theorem answerHost_arg1 (v : Word) (s : State) : (answerHost v s).arg1 = s.arg1 := rfl
@[simp] theorem answerHost_arg2 (v : Word) (s : State) : (answerHost v s).arg2 = s.arg2 := rfl
@[simp] theorem answerHost_state (v : Word) (s : State) : (answerHost v s).state = s.state := rfl
@[simp] theorem answerHost_dstate (v : Word) (s : State) : (answerHost v s).dstate = s.dstate := rfl
@[simp] theorem answerHost_taint (v : Word) (s : State) : (answerHost v s).taint = s.taint := rfl
@[simp] theorem answerHost_bfinal (v : Word) (s : State) : (answerHost v s).bfinal = s.bfinal := rfl
@[simp] theorem answerHost_btype (v : Word) (s : State) : (answerHost v s).btype = s.btype := rfl
@[simp] theorem answerHost_errcode (v : Word) (s : State) : (answerHost v s).errcode = s.errcode := rfl
@[simp] theorem answerHost_errpos (v : Word) (s : State) : (answerHost v s).errpos = s.errpos := rfl
@[simp] theorem answerHost_erraux (v : Word) (s : State) : (answerHost v s).erraux = s.erraux := rfl
@[simp] theorem answerHost_method (v : Word) (s : State) : (answerHost v s).method = s.method := rfl
@[simp] theorem answerHost_solid (v : Word) (s : State) : (answerHost v s).solid = s.solid := rfl
@[simp] theorem answerHost_csize (v : Word) (s : State) : (answerHost v s).csize = s.csize := rfl
@[simp] theorem answerHost_usize (v : Word) (s : State) : (answerHost v s).usize = s.usize := rfl
@[simp] theorem answerHost_inRecv (v : Word) (s : State) : (answerHost v s).inRecv = s.inRecv := rfl
@[simp] theorem answerHost_pos (v : Word) (s : State) : (answerHost v s).pos = s.pos := rfl
@[simp] theorem answerHost_npos (v : Word) (s : State) : (answerHost v s).npos = s.npos := rfl
@[simp] theorem answerHost_order (v : Word) (s : State) : (answerHost v s).order = s.order := rfl
@[simp] theorem answerHost_storedRem (v : Word) (s : State) : (answerHost v s).storedRem = s.storedRem := rfl
@[simp] theorem answerHost_hlit (v : Word) (s : State) : (answerHost v s).hlit = s.hlit := rfl
@[simp] theorem answerHost_hdist (v : Word) (s : State) : (answerHost v s).hdist = s.hdist := rfl
@[simp] theorem answerHost_hclen (v : Word) (s : State) : (answerHost v s).hclen = s.hclen := rfl
@[simp] theorem answerHost_lens (v : Word) (s : State) : (answerHost v s).lens = s.lens := rfl
@[simp] theorem answerHost_lidx (v : Word) (s : State) : (answerHost v s).lidx = s.lidx := rfl
@[simp] theorem answerHost_mlen (v : Word) (s : State) : (answerHost v s).mlen = s.mlen := rfl
@[simp] theorem answerHost_tCl (v : Word) (s : State) : (answerHost v s).tCl = s.tCl := rfl
@[simp] theorem answerHost_tLit (v : Word) (s : State) : (answerHost v s).tLit = s.tLit := rfl
@[simp] theorem answerHost_tDist (v : Word) (s : State) : (answerHost v s).tDist = s.tDist := rfl
@[simp] theorem answerHost_inp (v : Word) (s : State) : (answerHost v s).inp = s.inp := rfl
@[simp] theorem answerHost_out (v : Word) (s : State) : (answerHost v s).out = s.out := rfl
@[simp] theorem answerHost_outPtr (v : Word) (s : State) : (answerHost v s).outPtr = s.outPtr := rfl
@[simp] theorem answerHost_hist (v : Word) (s : State) : (answerHost v s).hist = s.hist := rfl
@[simp] theorem answerHost_progFile (v : Word) (s : State) : (answerHost v s).progFile = s.progFile := rfl
@[simp] theorem answerHost_progTotal (v : Word) (s : State) : (answerHost v s).progTotal = s.progTotal := rfl
@[simp] theorem answerHost_filesDone (v : Word) (s : State) : (answerHost v s).filesDone = s.filesDone := rfl
@[simp] theorem answerHost_evlog (v : Word) (s : State) : (answerHost v s).evlog = s.evlog := rfl

/-! ## withFetchWord: the host's CMD write put first (log 1) -/

@[simp] theorem withFetchWord_cfg (s : State) (n w : Nat) : (s.withFetchWord n w).cfg = s.cfg := rfl
@[simp] theorem withFetchWord_sched (s : State) (n w : Nat) :
    (s.withFetchWord n w).sched = commandTurn n w :: s.sched := rfl
@[simp] theorem withFetchWord_hostData (s : State) (n w : Nat) : (s.withFetchWord n w).hostData = s.hostData := rfl
@[simp] theorem withFetchWord_refusalMark (s : State) (n w : Nat) :
    (s.withFetchWord n w).refusalMark = s.refusalMark := rfl
@[simp] theorem withFetchWord_freeReads (s : State) (n w : Nat) : (s.withFetchWord n w).freeReads = s.freeReads := rfl
@[simp] theorem withFetchWord_epoch (s : State) (n w : Nat) : (s.withFetchWord n w).epoch = s.epoch := rfl
@[simp] theorem withFetchWord_arg0 (s : State) (n w : Nat) : (s.withFetchWord n w).arg0 = s.arg0 := rfl
@[simp] theorem withFetchWord_arg1 (s : State) (n w : Nat) : (s.withFetchWord n w).arg1 = s.arg1 := rfl
@[simp] theorem withFetchWord_arg2 (s : State) (n w : Nat) : (s.withFetchWord n w).arg2 = s.arg2 := rfl
@[simp] theorem withFetchWord_state (s : State) (n w : Nat) : (s.withFetchWord n w).state = s.state := rfl
@[simp] theorem withFetchWord_dstate (s : State) (n w : Nat) : (s.withFetchWord n w).dstate = s.dstate := rfl
@[simp] theorem withFetchWord_taint (s : State) (n w : Nat) : (s.withFetchWord n w).taint = s.taint := rfl
@[simp] theorem withFetchWord_bfinal (s : State) (n w : Nat) : (s.withFetchWord n w).bfinal = s.bfinal := rfl
@[simp] theorem withFetchWord_btype (s : State) (n w : Nat) : (s.withFetchWord n w).btype = s.btype := rfl
@[simp] theorem withFetchWord_errcode (s : State) (n w : Nat) : (s.withFetchWord n w).errcode = s.errcode := rfl
@[simp] theorem withFetchWord_errpos (s : State) (n w : Nat) : (s.withFetchWord n w).errpos = s.errpos := rfl
@[simp] theorem withFetchWord_erraux (s : State) (n w : Nat) : (s.withFetchWord n w).erraux = s.erraux := rfl
@[simp] theorem withFetchWord_method (s : State) (n w : Nat) : (s.withFetchWord n w).method = s.method := rfl
@[simp] theorem withFetchWord_solid (s : State) (n w : Nat) : (s.withFetchWord n w).solid = s.solid := rfl
@[simp] theorem withFetchWord_csize (s : State) (n w : Nat) : (s.withFetchWord n w).csize = s.csize := rfl
@[simp] theorem withFetchWord_usize (s : State) (n w : Nat) : (s.withFetchWord n w).usize = s.usize := rfl
@[simp] theorem withFetchWord_inRecv (s : State) (n w : Nat) : (s.withFetchWord n w).inRecv = s.inRecv := rfl
@[simp] theorem withFetchWord_pos (s : State) (n w : Nat) : (s.withFetchWord n w).pos = s.pos := rfl
@[simp] theorem withFetchWord_npos (s : State) (n w : Nat) : (s.withFetchWord n w).npos = s.npos := rfl
@[simp] theorem withFetchWord_order (s : State) (n w : Nat) : (s.withFetchWord n w).order = s.order := rfl
@[simp] theorem withFetchWord_storedRem (s : State) (n w : Nat) : (s.withFetchWord n w).storedRem = s.storedRem := rfl
@[simp] theorem withFetchWord_hlit (s : State) (n w : Nat) : (s.withFetchWord n w).hlit = s.hlit := rfl
@[simp] theorem withFetchWord_hdist (s : State) (n w : Nat) : (s.withFetchWord n w).hdist = s.hdist := rfl
@[simp] theorem withFetchWord_hclen (s : State) (n w : Nat) : (s.withFetchWord n w).hclen = s.hclen := rfl
@[simp] theorem withFetchWord_lens (s : State) (n w : Nat) : (s.withFetchWord n w).lens = s.lens := rfl
@[simp] theorem withFetchWord_lidx (s : State) (n w : Nat) : (s.withFetchWord n w).lidx = s.lidx := rfl
@[simp] theorem withFetchWord_mlen (s : State) (n w : Nat) : (s.withFetchWord n w).mlen = s.mlen := rfl
@[simp] theorem withFetchWord_tCl (s : State) (n w : Nat) : (s.withFetchWord n w).tCl = s.tCl := rfl
@[simp] theorem withFetchWord_tLit (s : State) (n w : Nat) : (s.withFetchWord n w).tLit = s.tLit := rfl
@[simp] theorem withFetchWord_tDist (s : State) (n w : Nat) : (s.withFetchWord n w).tDist = s.tDist := rfl
@[simp] theorem withFetchWord_inp (s : State) (n w : Nat) : (s.withFetchWord n w).inp = s.inp := rfl
@[simp] theorem withFetchWord_out (s : State) (n w : Nat) : (s.withFetchWord n w).out = s.out := rfl
@[simp] theorem withFetchWord_outPtr (s : State) (n w : Nat) : (s.withFetchWord n w).outPtr = s.outPtr := rfl
@[simp] theorem withFetchWord_hist (s : State) (n w : Nat) : (s.withFetchWord n w).hist = s.hist := rfl
@[simp] theorem withFetchWord_progFile (s : State) (n w : Nat) : (s.withFetchWord n w).progFile = s.progFile := rfl
@[simp] theorem withFetchWord_progTotal (s : State) (n w : Nat) : (s.withFetchWord n w).progTotal = s.progTotal := rfl
@[simp] theorem withFetchWord_filesDone (s : State) (n w : Nat) : (s.withFetchWord n w).filesDone = s.filesDone := rfl
@[simp] theorem withFetchWord_evlog (s : State) (n w : Nat) : (s.withFetchWord n w).evlog = s.evlog := rfl

end Sys2Proof.Machine
end

