-- ==== Sys2Proof/Laws/Memory.lean ====
section
/-! SUPPORT. The laws of a byte space: a read after a write, the canonical form kept, and equal contents are equal
lists. -/

namespace Sys2Proof.Machine

@[simp] theorem Memory.read?_nil (a : Nat) : Memory.read? [] a = none := rfl

@[simp] theorem Memory.read?_cons (c : Host.Cell) (m : Memory) (a : Nat) :
    Memory.read? (c :: m) a = if a = c.1 then some c.2 else Memory.read? m a := rfl

/-- A byte just written reads back (20 R61, R62). -/
@[simp] theorem Memory.read?_write_same (m : Memory) (a : Nat) (v : Byte) : (m.write a v).read? a = some v := by
  induction m with
  | nil => simp [Memory.write]
  | cons c m ih =>
    obtain ⟨b, w⟩ := c
    unfold Memory.write
    split
    · simp
    · split
      · simp
      · rename_i h1 h2
        simp [h2, ih]

/-- A write leaves every other byte alone. -/
theorem Memory.read?_write_other (m : Memory) (a b : Nat) (v : Byte) (h : b ≠ a) :
    (m.write a v).read? b = m.read? b := by
  induction m with
  | nil => simp [Memory.write, h]
  | cons c m ih =>
    obtain ⟨d, w⟩ := c
    unfold Memory.write
    split
    · simp [h]
    · split
      · rename_i h2
        subst h2
        simp [h]
      · simp [ih]

theorem Memory.read?_write (m : Memory) (a b : Nat) (v : Byte) :
    (m.write a v).read? b = if b = a then some v else m.read? b := by
  by_cases h : b = a
  · subst h; simp
  · simp [h, Memory.read?_write_other]

/-- The canonical form, said of the head and the tail. -/
theorem Memory.wf_cons (c : Host.Cell) (m : Memory) :
    Memory.wf (c :: m) = true ↔ (∀ d ∈ m.head?, c.1 < d.1) ∧ m.wf = true := by
  cases m with
  | nil => simp [Memory.wf]
  | cons d m => obtain ⟨a, v⟩ := c; obtain ⟨b, w⟩ := d; simp [Memory.wf]

theorem Memory.head?_write (m : Memory) (a : Nat) (v : Byte) :
    ∀ d ∈ (m.write a v).head?, d.1 = a ∨ ∃ e ∈ m.head?, d.1 = e.1 := by
  cases m with
  | nil => simp [Memory.write]
  | cons c m =>
    obtain ⟨b, w⟩ := c
    unfold Memory.write
    split
    · simp
    · split <;> simp_all

/-- A write keeps the canonical form. -/
theorem Memory.wf_write (m : Memory) (a : Nat) (v : Byte) (h : m.wf = true) : (m.write a v).wf = true := by
  induction m with
  | nil => simp [Memory.write, Memory.wf]
  | cons c m ih =>
    obtain ⟨b, w⟩ := c
    rw [Memory.wf_cons] at h
    unfold Memory.write
    split
    · rename_i hlt
      rw [Memory.wf_cons, Memory.wf_cons]
      exact ⟨by simpa using hlt, h⟩
    · split
      · rename_i heq
        rw [Memory.wf_cons]
        exact ⟨by simpa [heq] using h.1, h.2⟩
      · rename_i h1 h2
        rw [Memory.wf_cons]
        refine ⟨fun d hd => ?_, ih h.2⟩
        rcases Memory.head?_write m a v d hd with h3 | ⟨e, he, h3⟩
        · simp only [h3]; omega
        · simp only [h3]; exact h.1 e he

/-- In canonical form every address of the tail lies above the head's. -/
theorem Memory.lt_of_wf_cons (c : Host.Cell) (m : Memory) (h : Memory.wf (c :: m) = true) :
    ∀ a, a ≤ c.1 → m.read? a = none := by
  induction m generalizing c with
  | nil => simp
  | cons d m ih =>
    intro a ha
    rw [Memory.wf_cons] at h
    have hd : c.1 < d.1 := h.1 d (by simp)
    rw [Memory.read?_cons, if_neg (by omega), ih d h.2 a (by omega)]

/-- Equal contents in canonical form are equal lists. -/
theorem Memory.eq_of_read?_eq (m n : Memory) (hm : m.wf = true) (hn : n.wf = true)
    (h : ∀ a, m.read? a = n.read? a) : m = n := by
  induction m generalizing n with
  | nil =>
    cases n with
    | nil => rfl
    | cons d n => have := h d.1; simp at this
  | cons c m ih =>
    cases n with
    | nil => have := h c.1; simp at this
    | cons d n =>
      have hc := Memory.lt_of_wf_cons c m hm
      have hd := Memory.lt_of_wf_cons d n hn
      have e1 : c.1 = d.1 := by
        rcases Nat.lt_trichotomy c.1 d.1 with hlt | heq | hgt
        · have := h c.1
          simp only [Memory.read?_cons, if_pos, if_neg (Nat.ne_of_lt hlt), hd c.1 (Nat.le_of_lt hlt)] at this
          cases this
        · exact heq
        · have := h d.1
          simp only [Memory.read?_cons, if_pos, if_neg (Nat.ne_of_lt hgt), hc d.1 (Nat.le_of_lt hgt)] at this
          cases this
      have e2 : c.2 = d.2 := by
        have := h c.1
        simpa [e1] using this
      have e3 : m = n := by
        refine ih n ((Memory.wf_cons c m).1 hm).2 ((Memory.wf_cons d n).1 hn).2 (fun a => ?_)
        by_cases ha : a ≤ c.1
        · rw [hc a ha, hd a (by omega)]
        · have := h a
          simpa [Memory.read?_cons, show ¬ a = c.1 by omega, show ¬ a = d.1 by omega] using this
      subst e3
      obtain ⟨a, v⟩ := c
      obtain ⟨b, w⟩ := d
      simp_all

theorem reset_memory_wf : State.reset.inp.wf = true ∧ State.reset.out.wf = true := ⟨rfl, rfl⟩

/-! ## IN and OUT -/

/-- Appending a byte to OUT: what each OUT byte reads as afterwards (42 R212). -/
theorem outByte_putByte (b : Byte) (s : State) (a : Nat) :
    outByte (putByte b s) a = if a = s.outPtr.toNat then b else outByte s a := by
  simp only [outByte, putByte_out, putByte_epoch, Memory.read?_write]
  split <;> rfl

@[simp] theorem inByte_putByte (b : Byte) (s : State) (a : Nat) : inByte (putByte b s) a = inByte s a := rfl

/-- A host write to IN: what each IN byte reads as afterwards (20 R61). -/
theorem inByte_write (s : State) (a c : Nat) (b : Byte) :
    inByte { s with inp := s.inp.write a b } c = if c = a then b else inByte s c := by
  simp only [inByte, Memory.read?_write]
  split <;> rfl

end Sys2Proof.Machine
end

