-- ==== Sys2Proof/Laws/Ops.lean ====
section
/-! SUPPORT. One lemma per shared operation that says everything it can do: which raise it answers and when, or the
state it answers. -/

namespace Sys2Proof.Machine

/-! ## Taking a raise, ending a step -/

theorem raised_raiseError (c : ErrCode) (a x : Nat) (s : State) : Raised s (raiseError c a x s) c.code a x := rfl

@[simp] theorem takeRaise_error (c : ErrCode) (a x : Nat) (s : State) :
    takeRaise (.error c a x) s = .next (raiseError c a x s) := rfl

@[simp] theorem takeRaise_underrun (r a : Nat) (s : State) :
    takeRaise (.underrun r a) s = .next (raiseUnderrun r a s) := rfl

@[simp] theorem takeRaise_outside (u : Unreachable) (s : State) : takeRaise (.outside u) s = .refused u.refusal := rfl

@[simp] theorem runElement_ok (s t : State) : runElement s (.ok t) = .next (counterUpdate (commitCursor t)) := rfl

@[simp] theorem runElement_error (s : State) (r : Raise) : runElement s (.error r) = takeRaise r s := rfl

@[simp] theorem runCommand_ok (s t : State) : runCommand s (.ok t) = .next t := rfl

@[simp] theorem runCommand_error (s : State) (r : Raise) : runCommand s (.error r) = takeRaise r s := rfl

/-- What taking a raise can answer as a next state (60 R341, R345). -/
theorem takeRaise_next (r : Raise) (s t : State) (h : takeRaise r s = .next t) :
    (∃ c a x, t = raiseError c a x s) ∨ (∃ q a, t = enterWaiting q a s ∧ s.inRecv.toNat < s.csize.toNat) := by
  cases r with
  | error c a x => simp only [takeRaise_error, Host.Outcome.next.injEq] at h; exact .inl ⟨c, a, x, h.symm⟩
  | underrun q a =>
    simp only [takeRaise_underrun, Host.Outcome.next.injEq, raiseUnderrun] at h
    split at h
    · exact .inr ⟨q, a, h.symm, ‹_›⟩
    · exact .inl ⟨_, _, _, h.symm⟩
  | outside u => simp at h

/-- What an engine step can answer as a next state (43 R241). -/
theorem runElement_next (s t : State) (body : Except Raise State) (h : runElement s body = .next t) :
    (∃ u, body = .ok u ∧ t = counterUpdate (commitCursor u)) ∨ (∃ r, body = .error r ∧ takeRaise r s = .next t) := by
  cases body with
  | ok u => exact .inl ⟨u, rfl, by simpa using h.symm⟩
  | error r => exact .inr ⟨r, rfl, h⟩

/-- What a command can answer as a next state (44 R300). -/
theorem runCommand_next (s t : State) (body : Except Raise State) (h : runCommand s body = .next t) :
    body = .ok t ∨ (∃ r, body = .error r ∧ takeRaise r s = .next t) := by
  cases body with
  | ok u => left; simpa using h
  | error r => exact .inr ⟨r, rfl, h⟩

/-- The counters after a step follow OUT_PTR (44 R312). -/
theorem countersFollow_counterUpdate (s u : State) (hf : u.progFile = s.progFile) (ht : u.progTotal = s.progTotal) :
    CountersFollow s (counterUpdate u) := by
  simp only [CountersFollow, counterUpdate_progFile, counterUpdate_progTotal, counterUpdate_outPtr, hf, ht]
  split
  · refine ⟨by omega, ?_⟩
    apply BitVec.eq_of_toNat_eq
    simp
  · rename_i h
    refine ⟨by omega, ?_⟩
    rw [Nat.sub_eq_zero_of_le (by omega)]
    simp

/-! ## The window -/

theorem outAppend_ok (b : Byte) (s : State) (h : s.outPtr.toNat < s.usize.toNat) : outAppend b s = .ok (putByte b s) := by
  simp [outAppend, h]

theorem outAppend_full (b : Byte) (s : State) (h : s.usize.toNat ≤ s.outPtr.toNat) :
    outAppend b s = .error (.error .outputOverrun s.pos.toNat s.usize.toNat) := by
  simp [outAppend, h]

/-- The copy loop changes OUT and OUT_PTR only (42 R214). -/
theorem copyLoop_frame (dist k : Nat) (s : State) :
    copyLoop dist k s = { s with out := (copyLoop dist k s).out, outPtr := (copyLoop dist k s).outPtr } := by
  induction k generalizing s with
  | zero => rfl
  | succ k ih =>
    rw [show copyLoop dist (k + 1) s = copyLoop dist k (putByte (logical s (visibleHistory s + s.outPtr.toNat - dist)) s)
      from rfl, ih]
    rfl

theorem copyLoop_outPtr (dist k : Nat) (s : State) (h : s.outPtr.toNat + k < 2 ^ 32) :
    (copyLoop dist k s).outPtr.toNat = s.outPtr.toNat + k := by
  induction k generalizing s with
  | zero => rfl
  | succ k ih =>
    have e : (putByte (logical s (visibleHistory s + s.outPtr.toNat - dist)) s).outPtr.toNat = s.outPtr.toNat + 1 := by
      simp only [putByte_outPtr, BitVec.toNat_ofNat]
      omega
    rw [show copyLoop dist (k + 1) s = copyLoop dist k (putByte (logical s (visibleHistory s + s.outPtr.toNat - dist)) s)
      from rfl, ih _ (by rw [e]; omega), e]
    omega

/-- The copy loop writes no OUT byte outside the copied range (42 R214). -/
theorem copyLoop_outside (dist k : Nat) (s : State) (h : s.outPtr.toNat + k < 2 ^ 32) :
    OutSameOutside s (copyLoop dist k s) s.outPtr.toNat k := by
  induction k generalizing s with
  | zero => intro b _; rfl
  | succ k ih =>
    intro b hb
    have e : (putByte (logical s (visibleHistory s + s.outPtr.toNat - dist)) s).outPtr.toNat = s.outPtr.toNat + 1 := by
      simp only [putByte_outPtr, BitVec.toNat_ofNat]
      omega
    have := ih (putByte (logical s (visibleHistory s + s.outPtr.toNat - dist)) s) (by rw [e]; omega) b (by rw [e]; omega)
    rw [show copyLoop dist (k + 1) s = copyLoop dist k (putByte (logical s (visibleHistory s + s.outPtr.toNat - dist)) s)
      from rfl, this, outByte_putByte, if_neg (by omega)]

@[simp] theorem visibleHistory_putByte (b : Byte) (s : State) : visibleHistory (putByte b s) = visibleHistory s := rfl

@[simp] theorem visibleHistory_copyLoop (dist k : Nat) (s : State) :
    visibleHistory (copyLoop dist k s) = visibleHistory s := by
  rw [copyLoop_frame]; rfl

/-- A byte of the logical space below OUT_PTR stays as it is in a copy (42 R213, R214). -/
theorem logical_copyLoop (dist k : Nat) (s : State) (h : s.outPtr.toNat + k < 2 ^ 32) (a : Nat)
    (ha : a < visibleHistory s + s.outPtr.toNat) : logical (copyLoop dist k s) a = logical s a := by
  have hh : (copyLoop dist k s).hist = s.hist := by rw [copyLoop_frame]
  simp only [logical, visibleHistory_copyLoop, hh]
  split
  · rfl
  · exact copyLoop_outside dist k s h _ (.inl (by omega))

/-- Each copied byte is the byte `dist` back in the resulting logical space (42 R214, R216). -/
theorem copyLoop_copied (dist k : Nat) (s : State) (h : s.outPtr.toNat + k < 2 ^ 32) (h1 : 1 ≤ dist)
    (h2 : dist ≤ visibleHistory s + s.outPtr.toNat) (j : Nat) (hj : j < k) :
    outByte (copyLoop dist k s) (s.outPtr.toNat + j) =
      logical (copyLoop dist k s) (visibleHistory s + s.outPtr.toNat + j - dist) := by
  induction k generalizing s j with
  | zero => omega
  | succ k ih =>
    have e : (putByte (logical s (visibleHistory s + s.outPtr.toNat - dist)) s).outPtr.toNat = s.outPtr.toNat + 1 := by
      simp only [putByte_outPtr, BitVec.toNat_ofNat]
      omega
    rw [show copyLoop dist (k + 1) s = copyLoop dist k (putByte (logical s (visibleHistory s + s.outPtr.toNat - dist)) s)
      from rfl]
    cases j with
    | zero =>
      rw [copyLoop_outside dist k _ (by rw [e]; omega) _ (.inl (by rw [e]; omega)), outByte_putByte, if_pos (by omega),
        logical_copyLoop dist k _ (by rw [e]; omega) _ (by rw [e, visibleHistory_putByte]; omega)]
      simp only [logical, visibleHistory_putByte, putByte_hist, Nat.add_zero, outByte_putByte]
      split
      · rfl
      · rw [if_neg (by omega)]
    | succ j =>
      have := ih (putByte (logical s (visibleHistory s + s.outPtr.toNat - dist)) s) (by rw [e]; omega)
        (by rw [e, visibleHistory_putByte]; omega) j (by omega)
      rw [e, visibleHistory_putByte] at this
      rw [show s.outPtr.toNat + (j + 1) = s.outPtr.toNat + 1 + j by omega, this]
      congr 1
      omega

/-- The copy loop keeps OUT in its canonical form. -/
theorem copyLoop_wf (dist k : Nat) (s : State) (h : s.out.wf = true) : (copyLoop dist k s).out.wf = true := by
  induction k generalizing s with
  | zero => exact h
  | succ k ih => exact ih _ (Memory.wf_write _ _ _ h)

/-- Everything OutCopy can do (42 R214). -/
theorem outCopy_cases (len dist : Nat) (s : State) :
    (dist = 0 ∨ visible s < dist) ∧ outCopy len dist s = .error (.error .distanceTooFar s.pos.toNat dist) ∨
    (1 ≤ dist ∧ dist ≤ visible s ∧ s.usize.toNat < s.outPtr.toNat + len ∧
      outCopy len dist s = .error (.error .outputOverrun s.pos.toNat len)) ∨
    (1 ≤ dist ∧ dist ≤ visible s ∧ s.outPtr.toNat + len ≤ s.usize.toNat ∧
      outCopy len dist s = .ok (copyLoop dist len s)) := by
  unfold outCopy
  split
  · exact .inl ⟨‹_›, rfl⟩
  · split
    · exact .inr (.inl ⟨by omega, by omega, ‹_›, rfl⟩)
    · exact .inr (.inr ⟨by omega, by omega, by omega, rfl⟩)

/-- Everything the distance half of a match can do (43 R253, R255). -/
theorem distanceField_cases (d x : Nat) (s : State) :
    (30 ≤ d ∧ distanceField d x s = .error (.error .invalidDistanceSymbol s.pos.toNat d)) ∨
    (d < 30 ∧ distanceField d x s = outCopy s.mlen.toNat (matchDistance d x) s) := by
  unfold distanceField
  split
  · exact .inl ⟨‹_›, rfl⟩
  · exact .inr ⟨by omega, rfl⟩

/-- Every distance symbol below 30 has a base of at least 1 (30 R101). -/
theorem distanceBase_pos (d : Nat) (h : d < 30) : 1 ≤ distanceBase d := by
  interval_cases d <;> decide

/-! ## The end of a block and of an entry -/

/-- What Finish answers: LENGTH_MISMATCH, or the finished entry (43 R257). -/
theorem finish_cases (s : State) :
    (s.outPtr ≠ s.usize ∧ finish s = .error (.error .lengthMismatch s.npos.toNat s.outPtr.toNat)) ∨
    (s.outPtr = s.usize ∧ finish s = .ok { freeze s with
      evlog := s.evlog ++ [.extract s.filesDone s.usize]
      filesDone := BitVec.ofNat 32 (s.filesDone.toNat + 1)
      state := .done
      dstate := .none }) := by
  unfold finish
  split
  · exact .inl ⟨‹_›, rfl⟩
  · exact .inr ⟨not_not.1 ‹_›, rfl⟩

/-- What EndOfBlock answers (43 R256). -/
theorem endOfBlock_cases (s : State) :
    (s.bfinal = true ∧ endOfBlock s = finish s) ∨
    (s.bfinal = false ∧ endOfBlock s = .ok { s with dstate := .blkHdr }) := by
  unfold endOfBlock
  cases s.bfinal
  · exact .inr ⟨rfl, rfl⟩
  · exact .inl ⟨rfl, rfl⟩

/-! ## Tables and code lengths -/

/-- What HuffBuild answers (41 R172, R173). -/
theorem huffBuild_cases (tid : Nat) (lens : List Nat) (m a : Nat) :
    (overSubscribed lens m = true ∧ huffBuild tid lens m a = .error (.error .invalidCodeLengths a (tid * 256 + 1))) ∨
    (overSubscribed lens m = false ∧ huffBuild tid lens m a = .ok (tableOf lens m)) := by
  unfold huffBuild
  cases overSubscribed lens m
  · exact .inr ⟨rfl, rfl⟩
  · exact .inl ⟨rfl, rfl⟩

/-- Everything BuildDynamic can do (43 R250). -/
theorem buildDynamic_cases (s : State) :
    ((litLengths s).getD 256 0 = 0 ∧ buildDynamic s = .error (.error .invalidCodeLengths s.pos.toNat 0x104)) ∨
    ((litLengths s).getD 256 0 ≠ 0 ∧ overSubscribed (litLengths s) 15 = true ∧
      buildDynamic s = .error (.error .invalidCodeLengths s.pos.toNat 0x101)) ∨
    ((litLengths s).getD 256 0 ≠ 0 ∧ overSubscribed (litLengths s) 15 = false ∧
      overSubscribed (distLengths s) 15 = true ∧
      buildDynamic s = .error (.error .invalidCodeLengths s.pos.toNat 0x201)) ∨
    ((litLengths s).getD 256 0 ≠ 0 ∧ overSubscribed (litLengths s) 15 = false ∧
      overSubscribed (distLengths s) 15 = false ∧
      buildDynamic s = .ok { s with
        tLit := tableOf (litLengths s) 15, tDist := tableOf (distLengths s) 15, dstate := .huffData }) := by
  unfold buildDynamic
  split
  · exact .inl ⟨‹_›, rfl⟩
  · rename_i h
    rcases huffBuild_cases 1 (litLengths s) Config.maxBitsLitDist s.pos.toNat with ⟨h1, e1⟩ | ⟨h1, e1⟩
    · exact .inr (.inl ⟨h, h1, by rw [e1]⟩)
    · rcases huffBuild_cases 2 (distLengths s) Config.maxBitsLitDist s.pos.toNat with ⟨h2, e2⟩ | ⟨h2, e2⟩
      · exact .inr (.inr (.inl ⟨h, h1, h2, by rw [e1, e2]⟩))
      · exact .inr (.inr (.inr ⟨h, h1, h2, by rw [e1, e2]; rfl⟩))

/-- Everything ApplyCLSymbol can do once its value and count are known (41 R182, 43 R249). -/
theorem applyRun_cases (v : BitVec 4) (r : Nat) (s : State) :
    (totalLengths s < s.lidx.toNat + r ∧ applyRun v r s = .error (.error .invalidCodeLengths s.pos.toNat 0x103)) ∨
    (s.lidx.toNat + r = totalLengths s ∧ applyRun v r s = buildDynamic (writeRun v r s)) ∨
    (s.lidx.toNat + r < totalLengths s ∧ applyRun v r s = .ok (writeRun v r s)) := by
  unfold applyRun
  split
  · exact .inl ⟨‹_›, rfl⟩
  · split
    · exact .inr (.inl ⟨‹_›, rfl⟩)
    · exact .inr (.inr ⟨by omega, rfl⟩)

@[simp] theorem setRun_length (l : List (BitVec 4)) (i r : Nat) (v : BitVec 4) : (setRun l i r v).length = l.length := by
  induction l generalizing i r with
  | nil => rfl
  | cons x xs ih => cases i <;> cases r <;> simp [setRun, ih]

/-- The entries a run writes, and the others (41 R182). -/
theorem setRun_getD (l : List (BitVec 4)) (i r : Nat) (v : BitVec 4) (k : Nat) (h : k < l.length) :
    (setRun l i r v).getD k 0 = if i ≤ k ∧ k < i + r then v else l.getD k 0 := by
  induction l generalizing i r k with
  | nil => simp at h
  | cons x xs ih =>
    cases i with
    | zero =>
      cases r with
      | zero => simp [setRun]
      | succ r =>
        cases k with
        | zero => simp [setRun]
        | succ k =>
          have := ih 0 r k (by simpa using h)
          simp only [setRun, List.getD_cons_succ, this]
          simp
    | succ i =>
      cases k with
      | zero => simp [setRun]
      | succ k =>
        have := ih i r k (by simpa using h)
        simp only [setRun, List.getD_cons_succ, this]
        congr 1
        simp only [eq_iff_iff]
        omega

/-! ## Commands -/

/-- Everything START_ENTRY can do (44 R304, R305). -/
theorem startEntry_cases (a0 cs us : Word) (s : State) :
    (∃ c x, startEntry a0 cs us s = .error (.error c s.pos.toNat x)) ∨
    (startLegal s.state = true ∧ cs.toNat < s.cfg.inCap ∧ us.toNat ≤ s.cfg.outCap ∧
      (startMethod a0 = 0 ∨ startMethod a0 = 8) ∧ ¬ (startSolid a0 = true ∧ s.taint = true) ∧
      (startMethod a0 = 0 → cs = us) ∧
      startEntry a0 cs us s = .ok (beginEntry (startMethod a0) (startSolid a0) cs us s)) := by
  unfold startEntry
  split
  · exact .inl ⟨_, _, rfl⟩
  split
  · exact .inl ⟨_, _, rfl⟩
  split
  · exact .inl ⟨_, _, rfl⟩
  split
  · exact .inl ⟨_, _, rfl⟩
  split
  · exact .inl ⟨_, _, rfl⟩
  · rename_i h1 h2 h3 h4 h5
    refine .inr ⟨by simpa using h1, by omega, by omega, ?_, h4, ?_, rfl⟩
    · by_cases h : startMethod a0 = 0
      · exact .inl h
      · exact .inr (by by_contra h'; exact h3 ⟨h, h'⟩)
    · intro h; by_contra h'; exact h5 ⟨h, h'⟩

/-- Everything APPEND_INPUT can do (44 R306). -/
theorem appendInput_cases (k : Word) (s : State) :
    (∃ x, appendInput k s = .error (.error .illegalCommand s.pos.toNat x)) ∨
    (appendLegal s.state = true ∧ s.inRecv.toNat + k.toNat ≤ s.csize.toNat ∧
      (s.state = .waiting ∧ appendInput k s = .ok (resume (deliver k.toNat s)) ∨
        s.state ≠ .waiting ∧ appendInput k s = .ok (deliver k.toNat s))) := by
  unfold appendInput
  split
  · exact .inl ⟨_, rfl⟩
  split
  · exact .inl ⟨_, rfl⟩
  · rename_i h1 h2
    refine .inr ⟨by simpa using h1, by omega, ?_⟩
    split
    · exact .inl ⟨‹_›, rfl⟩
    · exact .inr ⟨‹_›, rfl⟩

/-! ## The history -/

/-- What the bounded retention drops (42 R218): a prefix, each member of it leaving at least `r` bytes behind, and it
stops at one member or when the next drop would leave fewer. -/
theorem retainLoop_spec (r : Nat) (h : List (List Byte)) :
    ∃ n, retainLoop r h = h.drop n ∧ n ≤ h.length ∧ (h ≠ [] → n < h.length) ∧
      (∀ k, k < n → r ≤ historyLength (h.drop (k + 1))) ∧
      ((h.drop n).length ≤ 1 ∨ historyLength (h.drop (n + 1)) < r) := by
  induction h with
  | nil => exact ⟨0, by simp [retainLoop]⟩
  | cons x h ih =>
    cases h with
    | nil => exact ⟨0, by simp [retainLoop]⟩
    | cons y h =>
      simp only [retainLoop]
      split
      · rename_i hr
        obtain ⟨n, e, h1, h2, h3, h4⟩ := ih
        refine ⟨n + 1, by simpa using e, by simpa using h1, fun _ => by simpa using h2 (by simp), ?_, by simpa using h4⟩
        intro k hk
        cases k with
        | zero => simpa using hr
        | succ k => simpa using h3 k (by omega)
      · rename_i hr
        exact ⟨0, rfl, by simp, by simp, by simp, .inr (by simpa using Nat.lt_of_not_le hr)⟩

/-- The newest member always stays (42 R218). -/
theorem retain_getLast? (b : Option Nat) (h : List (List Byte)) : (retain b h).getLast? = h.getLast? := by
  cases b with
  | none => rfl
  | some r =>
    obtain ⟨n, e, _, h2, _⟩ := retainLoop_spec r h
    simp only [retain, e]
    by_cases hh : h = []
    · simp [hh]
    · simp [List.getLast?_drop, Nat.not_le.2 (h2 hh)]

end Sys2Proof.Machine
end

