-- ==== Sys2Proof/Laws/Cursor.lean ====
section
/-! SUPPORT. What the cursor primitives, HuffDecode and the element decoders can answer: the position after a read that
answers, and what they read. -/

namespace Sys2Proof.Machine

/-! ## Bits -/

theorem lsbValue_lt (st : Stream) (n p : Nat) : lsbValue st n p < 2 ^ n := by
  induction n generalizing p with
  | zero => simp [lsbValue]
  | succ n ih =>
    have := ih (p + 1)
    have hb : (bitAt st p).toNat ≤ 1 := Bool.toNat_le _
    simp only [lsbValue]
    omega

theorem msbValue_lt (st : Stream) (n p : Nat) : msbValue st n p < 2 ^ n := by
  induction n generalizing p with
  | zero => simp [msbValue]
  | succ n ih =>
    have := ih (p + 1)
    have hb : (bitAt st p).toNat ≤ 1 := Bool.toNat_le _
    simp only [msbValue]
    have : (bitAt st p).toNat * 2 ^ n ≤ 1 * 2 ^ n := Nat.mul_le_mul_right _ hb
    omega

theorem streamValue_lt (st : Stream) (n p : Nat) : streamValue st n p < 2 ^ n := by
  unfold streamValue
  split
  · exact lsbValue_lt ..
  · exact msbValue_lt ..

/-- Everything ReadBits can do (40 R144, R145, R149). -/
theorem readBits_cases (st : Stream) (n p : Nat) :
    (16 < n ∧ readBits st n p = .error (.outside .readTooWide)) ∨
    (n ≤ 16 ∧ st.avail < p + n ∧ readBits st n p = .error (.underrun n p)) ∨
    (n ≤ 16 ∧ p + n ≤ st.avail ∧ readBits st n p = .ok (streamValue st n p, p + n)) := by
  unfold readBits peekBits
  by_cases h : Config.maxReadBits < n
  · exact .inl ⟨h, by simp [h]⟩
  · by_cases h2 : st.avail < p + n
    · exact .inr (.inl ⟨Nat.not_lt.1 h, h2, by simp [h, h2]⟩)
    · exact .inr (.inr ⟨Nat.not_lt.1 h, by omega, by simp [h, h2]⟩)

/-- A read that answers: its value and the position after it (40 R145). -/
theorem readBits_ok {st : Stream} {n p v q : Nat} (h : readBits st n p = .ok (v, q)) :
    v = streamValue st n p ∧ q = p + n ∧ q ≤ st.avail ∧ v < 2 ^ n := by
  rcases readBits_cases st n p with ⟨_, e⟩ | ⟨_, _, e⟩ | ⟨_, h2, e⟩ <;> rw [e] at h
  · cases h
  · cases h
  · cases h; exact ⟨rfl, rfl, h2, streamValue_lt ..⟩

theorem readBits_of_le (st : Stream) (n p : Nat) (h : n ≤ 16) (h2 : p + n ≤ st.avail) :
    readBits st n p = .ok (streamValue st n p, p + n) := by
  rcases readBits_cases st n p with ⟨h3, _⟩ | ⟨_, h3, _⟩ | ⟨_, _, e⟩
  · omega
  · omega
  · exact e

theorem alignByte_spec (p : Nat) : p ≤ alignByte p ∧ alignByte p < p + 8 ∧ alignByte p % 8 = 0 := by
  unfold alignByte
  split <;> omega

theorem alignByte_of_aligned {p : Nat} (h : p % 8 = 0) : alignByte p = p := by simp [alignByte, h]

/-- ReadBytes(1) in LSB order: the byte at the next boundary (40 R146, R147). -/
theorem readOneByte_lsb (st : Stream) (p : Nat) (ho : st.order = .lsb) :
    (st.avail < alignByte p + 8 ∧ readOneByte st p = .error (.underrun 8 (alignByte p))) ∨
    (alignByte p + 8 ≤ st.avail ∧ readOneByte st p = .ok (st.byteAt (alignByte p / 8), alignByte p + 8)) := by
  have h8 := (alignByte_spec p).2.2
  by_cases h : st.recv < alignByte p / 8 + 1
  · exact .inl ⟨by simp only [Stream.avail]; omega, by simp [readOneByte, readBytes, ho, readBytesAligned, h]⟩
  · refine .inr ⟨by simp only [Stream.avail]; omega, ?_⟩
    simp only [readOneByte, readBytes, ho, readBytesAligned, h, if_false, byteSlice]
    simp
    omega

/-! ## Huffman codes -/

/-- What the decode loop answers: a symbol of the table, with at least one bit read and none past the delivered
input (41 R176). -/
theorem huffLoop_ok {t : HuffTable} {st : Stream} {start k l code p s q : Nat}
    (h : huffLoop t st start k l code p = .ok (s, q)) : p < q ∧ q ≤ st.avail ∧ ∃ i, s = t.symAt i := by
  induction k generalizing l code p with
  | zero => cases h
  | succ k ih =>
    simp only [huffLoop, readBit] at h
    rcases readBits_cases st 1 p with ⟨_, e⟩ | ⟨_, _, e⟩ | ⟨_, h2, e⟩ <;> rw [e] at h
    · cases h
    · cases h
    · simp only at h
      split at h
      · cases h; exact ⟨by omega, h2, _, rfl⟩
      · have := ih h; exact ⟨by omega, this.2⟩

theorem huffDecode_ok {t : HuffTable} {st : Stream} {p s q : Nat} (h : huffDecode t st p = .ok (s, q)) :
    t.built = true ∧ p < q ∧ q ≤ st.avail ∧ ∃ i, s = t.symAt i := by
  unfold huffDecode at h
  split at h
  · exact ⟨‹_›, huffLoop_ok h⟩
  · cases h

/-- The raises of HuffDecode on a built table: CORRUPT_HUFFMAN_TABLE or an underrun (41 R176-R178). -/
theorem huffLoop_error {t : HuffTable} {st : Stream} {start k l code p : Nat} {r : Raise}
    (h : huffLoop t st start k l code p = .error r) :
    (∃ x, r = .error .corruptHuffmanTable start x) ∨ ∃ n a, r = .underrun n a := by
  induction k generalizing l code p with
  | zero => simp only [huffLoop, Except.error.injEq] at h; exact .inl ⟨_, h.symm⟩
  | succ k ih =>
    simp only [huffLoop, readBit] at h
    rcases readBits_cases st 1 p with ⟨h0, _⟩ | ⟨_, _, e⟩ | ⟨_, _, e⟩
    · omega
    · rw [e] at h; cases h; exact .inr ⟨_, _, rfl⟩
    · rw [e] at h
      simp only at h
      split at h
      · cases h
      · exact ih h

/-- A symbol read from a table is in the table's alphabet. -/
theorem symAt_lt {t : HuffTable} {n : Nat} (h : symbolsBelow t n) (hn : 0 < n) (i : Nat) : t.symAt i < n := by
  unfold HuffTable.symAt
  by_cases hi : i < t.sym.length
  · rw [List.getD_eq_getElem _ _ hi]; exact h _ (List.getElem_mem hi)
  · rw [List.getD_eq_default _ _ (by omega)]; simpa using hn

theorem symbolOrder_lt (lens : List Nat) (m : Nat) : ∀ s ∈ symbolOrder lens m, s < lens.length := by
  intro s h
  simp only [symbolOrder, symbolsOfLength, List.mem_flatMap, List.mem_filter, List.mem_range] at h
  obtain ⟨_, _, h2, _⟩ := h
  exact h2

/-- A built table has only symbols of its alphabet (41 R172, R175). -/
theorem symbolsBelow_tableOf (lens : List Nat) (m : Nat) (h : 0 < lens.length) (h2 : lens.length ≤ 512) :
    symbolsBelow (tableOf lens m) lens.length := by
  intro v hv
  simp only [tableOf] at hv
  rcases List.mem_append.1 (List.mem_of_mem_take hv) with hv | hv
  · obtain ⟨s, hs, rfl⟩ := List.mem_map.1 hv
    have := symbolOrder_lt lens m s hs
    simp only [BitVec.toNat_ofNat]
    omega
  · rw [List.eq_of_mem_replicate hv]; simpa using h

/-! ## Elements -/

/-- A monadic sequence that answers: both parts answer. -/
theorem except_bind_ok {α β : Type} {x : Except Raise α} {f : α → Except Raise β} {b : β}
    (h : (x >>= f) = .ok b) : ∃ a, x = .ok a ∧ f a = .ok b := by
  cases x with
  | ok a => exact ⟨a, rfl, h⟩
  | error r => cases h

/-- A monadic sequence that raises: the first part raises, or it answers and the second raises. -/
theorem except_bind_error {α β : Type} {x : Except Raise α} {f : α → Except Raise β} {r : Raise}
    (h : (x >>= f) = .error r) : x = .error r ∨ ∃ a, x = .ok a ∧ f a = .error r := by
  cases x with
  | ok a => exact .inr ⟨a, rfl, h⟩
  | error e => exact .inl (by cases h; rfl)

end Sys2Proof.Machine

namespace Sys2Proof

open Machine

/-- A block header that is read (43 R242). -/
theorem decodeBlockHeader_ok {st : Stream} {p q : Nat} {i : Instr} (h : decodeBlockHeader st p = .ok (i, q)) :
    q = p + 3 ∧ q ≤ st.avail ∧
      ∃ f, i = .blockStored f ∨ i = .blockFixed f ∨ i = .blockDynamic f ∨ i = .blockReserved f := by
  obtain ⟨⟨f, q1⟩, h1, h⟩ := except_bind_ok h
  obtain ⟨⟨t, q2⟩, h2, h⟩ := except_bind_ok h
  have h1 := readBits_ok h1
  have h2 := readBits_ok h2
  cases h
  refine ⟨by omega, by omega, f == 1, ?_⟩
  unfold blockHeader
  split <;> simp

/-- A stored header that is read (43 R244). -/
theorem decodeStoredHdr_ok {st : Stream} {p q : Nat} {i : Instr} (h : decodeStoredHdr st p = .ok (i, q)) :
    q = alignByte p + 32 ∧ q ≤ st.avail ∧ ∃ l n, i = .storedHdr l n := by
  obtain ⟨⟨l, q1⟩, h1, h⟩ := except_bind_ok h
  obtain ⟨⟨n, q2⟩, h2, h⟩ := except_bind_ok h
  have h1 := readBits_ok h1
  have h2 := readBits_ok h2
  cases h
  exact ⟨by omega, by omega, _, _, rfl⟩

/-- A stored byte that is read in LSB order (43 R245). -/
theorem decodeStoredByte_ok {st : Stream} {p q : Nat} {i : Instr} (ho : st.order = .lsb)
    (h : decodeStoredByte st p = .ok (i, q)) :
    q = alignByte p + 8 ∧ q ≤ st.avail ∧ i = .storedByte (st.byteAt (alignByte p / 8)) := by
  obtain ⟨⟨b, q1⟩, h1, h⟩ := except_bind_ok h
  rcases readOneByte_lsb st p ho with ⟨_, e⟩ | ⟨h2, e⟩ <;> rw [e] at h1
  · cases h1
  · cases h1; cases h; exact ⟨rfl, h2, rfl⟩

/-- A raw byte that is read in LSB order, or the element that reads none (43 R260). -/
theorem decodeRawByte_ok {full : Bool} {st : Stream} {p q : Nat} {i : Instr} (ho : st.order = .lsb)
    (h : decodeRawByte full st p = .ok (i, q)) :
    (full = true ∧ q = p ∧ i = .rawByte 0) ∨
      (full = false ∧ q = alignByte p + 8 ∧ q ≤ st.avail ∧ i = .rawByte (st.byteAt (alignByte p / 8))) := by
  cases full with
  | true => simp only [decodeRawByte, if_true] at h; cases h; exact .inl ⟨rfl, rfl, rfl⟩
  | false =>
    simp only [decodeRawByte] at h
    obtain ⟨⟨b, q1⟩, h1, h⟩ := except_bind_ok h
    rcases readOneByte_lsb st p ho with ⟨_, e⟩ | ⟨h2, e⟩ <;> rw [e] at h1
    · cases h1
    · cases h1; cases h; exact .inr ⟨rfl, rfl, h2, rfl⟩

/-- Dynamic counts that are read (43 R247). -/
theorem decodeDynCounts_ok {st : Stream} {p q : Nat} {i : Instr} (h : decodeDynCounts st p = .ok (i, q)) :
    q = p + 14 ∧ q ≤ st.avail ∧ ∃ l d c, i = .dynCounts l d c := by
  obtain ⟨⟨l, q1⟩, h1, h⟩ := except_bind_ok h
  obtain ⟨⟨d, q2⟩, h2, h⟩ := except_bind_ok h
  obtain ⟨⟨c, q3⟩, h3, h⟩ := except_bind_ok h
  have h1 := readBits_ok h1
  have h2 := readBits_ok h2
  have h3 := readBits_ok h3
  cases h
  exact ⟨by omega, by omega, _, _, _, rfl⟩

theorem readLengths_ok {st : Stream} {n p q : Nat} {ls : List (BitVec 3)} (h : readLengths st n p = .ok (ls, q)) :
    q = p + 3 * n ∧ ls.length = n ∧ (0 < n → q ≤ st.avail) := by
  induction n generalizing p q ls with
  | zero => cases h; simp
  | succ n ih =>
    obtain ⟨⟨v, q1⟩, h1, h⟩ := except_bind_ok h
    obtain ⟨⟨vs, q2⟩, h2, h⟩ := except_bind_ok h
    have h1 := readBits_ok h1
    have h2 := ih h2
    cases h
    refine ⟨by omega, by simp [h2.2.1], fun _ => ?_⟩
    by_cases hn : 0 < n
    · exact h2.2.2 hn
    · omega

/-- Code-length-code lengths that are read (43 R248). -/
theorem decodeDynCllen_ok {n : Nat} {st : Stream} {p q : Nat} {i : Instr} (h : decodeDynCllen n st p = .ok (i, q)) :
    q = p + 3 * n ∧ (0 < n → q ≤ st.avail) ∧ ∃ ls, i = .dynCllen ls ∧ ls.length = n := by
  obtain ⟨⟨ls, q1⟩, h1, h⟩ := except_bind_ok h
  have h1 := readLengths_ok h1
  cases h
  exact ⟨h1.1, h1.2.2, _, rfl, h1.2.1⟩

/-- A code-length symbol that is read (41 R182). -/
theorem decodeClSymbol_ok {t : HuffTable} {lidx : Nat} {st : Stream} {p q : Nat} {i : Instr}
    (h : decodeClSymbol t lidx st p = .ok (i, q)) :
    p < q ∧ q ≤ st.avail ∧
      ((∃ n, i = .clLen n) ∨ (∃ r, i = .clRepeatPrev r) ∨ (∃ r, i = .clRepeatZeroShort r) ∨
        ∃ r, i = .clRepeatZeroLong r) := by
  obtain ⟨⟨s, q1⟩, h1, h⟩ := except_bind_ok h
  have h1 := huffDecode_ok h1
  simp only at h
  split at h
  · cases h; exact ⟨h1.2.1, h1.2.2.1, .inl ⟨_, rfl⟩⟩
  split at h
  · split at h
    · cases h; exact ⟨h1.2.1, h1.2.2.1, .inr (.inl ⟨_, rfl⟩)⟩
    · obtain ⟨⟨r, q2⟩, h2, h⟩ := except_bind_ok h
      have h2 := readBits_ok h2
      cases h
      exact ⟨by omega, by omega, .inr (.inl ⟨_, rfl⟩)⟩
  split at h
  · obtain ⟨⟨r, q2⟩, h2, h⟩ := except_bind_ok h
    have h2 := readBits_ok h2
    cases h
    exact ⟨by omega, by omega, .inr (.inr (.inl ⟨_, rfl⟩))⟩
  split at h
  · obtain ⟨⟨r, q2⟩, h2, h⟩ := except_bind_ok h
    have h2 := readBits_ok h2
    cases h
    exact ⟨by omega, by omega, .inr (.inr (.inr ⟨_, rfl⟩))⟩
  · cases h

/-- A distance symbol and its extra value that are read (43 R253). -/
theorem readDistance_ok {t : HuffTable} {start : Nat} {st : Stream} {p d x q : Nat}
    (h : readDistance t start st p = .ok ((d, x), q)) :
    p < q ∧ q ≤ st.avail ∧ d < 32 ∧ x < 2 ^ distanceExtra d := by
  obtain ⟨⟨s, q1⟩, h1, h⟩ := except_bind_ok h
  have h1 := huffDecode_ok h1
  simp only at h
  split at h
  · cases h
  split at h
  · cases h; exact ⟨h1.2.1, h1.2.2.1, by omega, Nat.two_pow_pos _⟩
  · obtain ⟨⟨r, q2⟩, h2, h⟩ := except_bind_ok h
    have h2 := readBits_ok h2
    cases h
    exact ⟨by omega, by omega, by omega, h2.2.2.2⟩

/-- The match row built from a length symbol has its fields (30 R98). -/
theorem matchInstr_fields (s e d x : Nat) (h1 : 257 ≤ s) (h2 : s ≤ 285) (he : e < 2 ^ lengthExtra s) (hd : d < 32)
    (hx : x < 2 ^ 13) : (matchInstr s e d x).matchFields = some (s, e, d, x) := by
  have hd' : d % 2 ^ 5 = d := Nat.mod_eq_of_lt hd
  have hx' : x % 2 ^ 13 = x := Nat.mod_eq_of_lt hx
  interval_cases s <;>
    simp [lengthExtra, lengthTable] at he <;>
    simp [matchInstr, Instr.matchFields] <;> omega

/-- The distance row built from a symbol has its fields (30 R98). -/
theorem distanceInstr_fields (d x : Nat) (hd : d < 32) (hx : x < 2 ^ distanceExtra d) :
    (distanceInstr d x).distanceFields = some (d, x) := by
  interval_cases d <;>
    simp [distanceExtra, distanceTable] at hx <;>
    simp [distanceInstr, Instr.distanceFields] <;> omega

/-- No distance symbol has more than 13 extra bits (30 R101). -/
theorem distanceExtra_le (d : Nat) (hd : d < 32) : distanceExtra d ≤ 13 := by interval_cases d <;> decide

/-- A data element that is read (43 R251). -/
theorem decodeData_ok {tl td : HuffTable} {st : Stream} {p q : Nat} {i : Instr}
    (h : decodeData tl td st p = .ok (i, q)) :
    p < q ∧ q ≤ st.avail ∧
      ((∃ b, i = .lit b) ∨ i = .eob ∨ i = .litlenInvalid286 ∨ i = .litlenInvalid287 ∨
        ∃ s e d x, i.matchFields = some (s, e, d, x) ∧ 257 ≤ s ∧ s ≤ 285 ∧ e < 2 ^ lengthExtra s ∧ d < 32 ∧
          x < 2 ^ distanceExtra d) := by
  obtain ⟨⟨s, q1⟩, h1, h⟩ := except_bind_ok h
  have h1 := huffDecode_ok h1
  simp only at h
  split at h
  · cases h; exact ⟨h1.2.1, h1.2.2.1, .inl ⟨_, rfl⟩⟩
  split at h
  · cases h; exact ⟨h1.2.1, h1.2.2.1, .inr (.inl rfl)⟩
  split at h
  · rename_i n1 n2 n3
    obtain ⟨⟨e, q2⟩, h2, h⟩ := except_bind_ok h
    obtain ⟨⟨⟨d, x⟩, q3⟩, h3, h⟩ := except_bind_ok h
    have h2 := readBits_ok h2
    have h3 := readDistance_ok h3
    cases h
    refine ⟨by omega, by omega, .inr (.inr (.inr (.inr ⟨s, e, d, x, ?_, by omega, by omega, h2.2.2.2, h3.2.2.1,
      h3.2.2.2⟩)))⟩
    have hx : 2 ^ distanceExtra d ≤ 2 ^ 13 := Nat.pow_le_pow_right (by omega) (distanceExtra_le d h3.2.2.1)
    exact matchInstr_fields s e d x (by omega) (by omega) h2.2.2.2 h3.2.2.1 (by omega)
  split at h
  · cases h; exact ⟨h1.2.1, h1.2.2.1, .inr (.inr (.inl rfl))⟩
  split at h
  · cases h; exact ⟨h1.2.1, h1.2.2.1, .inr (.inr (.inr (.inl rfl)))⟩
  · cases h

end Sys2Proof
end

