-- ==== Sys2Proof/Laws/Step.lean ====
section
/-! SUPPORT. What one step is, turn by turn, and what the match, distance and code-length rows are, row by row. -/

namespace Sys2Proof.Machine

/-- Every match row runs the one match operation on its fields (43 R253). -/
theorem exec_match {i : Instr} {sym e d x : Nat} (h : i.matchFields = some (sym, e, d, x)) (s : State) :
    exec i s = runElement s (matchField sym e d x s) := by
  cases i <;> simp only [Instr.matchFields, Option.some.injEq, Prod.mk.injEq, reduceCtorEq] at h <;>
    obtain ⟨rfl, rfl, rfl, rfl⟩ := h <;> rfl

/-- Every distance row runs the one distance operation on its fields (43 R253, R255). -/
theorem exec_distance {i : Instr} {d x : Nat} (h : i.distanceFields = some (d, x)) (s : State) :
    exec i s = runElement s (distanceField d x s) := by
  cases i <;> simp only [Instr.distanceFields, Option.some.injEq, Prod.mk.injEq, reduceCtorEq] at h <;>
    obtain ⟨rfl, rfl⟩ := h <;> rfl

/-- Every code-length row runs ApplyCLSymbol on its value and count (41 R182). -/
theorem exec_lengthRun {i : Instr} {s : State} {v : BitVec 4} {r : Nat} (h : lengthRun s i = some (v, r)) :
    exec i s = runElement s (applyRun v r s) := by
  cases i <;> simp only [lengthRun, reduceCtorEq] at h
  case clLen n => cases h; rfl
  case clRepeatPrev r =>
    split at h
    · cases h
    · cases h
      simp only [exec, execClRepeatPrev, repeatPrevious]
      rw [if_neg ‹_›]
      rfl
  case clRepeatZeroShort r => cases h; rfl
  case clRepeatZeroLong r => cases h; rfl

/-- The command word written by the host decodes to one of the command rows (30 R108). -/
theorem decodeCommand_isCommand (w : Word) : (decodeCommand w).isCommand = true := by
  unfold decodeCommand
  split <;> rfl

/-! ## Turns -/

theorem step_eq (s : State) :
    step s = match nextWork s with
      | .run i t => exec i t
      | .settled o => o := rfl

theorem nextWork_eq (s : State) : nextWork s = turnWork (nextTurn s) { s with sched := s.sched.tail } := by
  obtain ⟨cfg, sched⟩ := s
  cases sched <;> rfl

/-- The engine's turn outside RUN changes nothing (10 R27). -/
theorem engineWork_idle (s : State) (h : s.state ≠ .run) : engineWork s = .settled (.next s) := by
  simp [engineWork, h]

/-- The engine's turn in RUN (43 R241). -/
theorem engineWork_run (s : State) (h : s.state = .run) :
    (∃ i q, fetchElement s = .ok (i, q) ∧ engineWork s = .run i { s with npos := BitVec.ofNat 32 q }) ∨
    (∃ r, fetchElement s = .error r ∧ engineWork s = .settled (takeRaise r s)) := by
  simp only [engineWork, h, if_true]
  cases hf : fetchElement s with
  | ok iq => exact .inl ⟨iq.1, iq.2, rfl, rfl⟩
  | error r => exact .inr ⟨r, rfl, rfl⟩

/-- A host register write (44 R311): refused, a command, or a stored or ignored word. -/
theorem registerWriteWork_cases (o z : Nat) (w : Word) (s : State) :
    (∃ why, registerForbidden o z = some why ∧ registerWriteWork o z w s = .settled (.next (refuseAccess why s))) ∨
    (registerForbidden o z = none ∧ o = 0 ∧ registerWriteWork o z w s = .run (decodeCommand w) s) ∨
    (registerForbidden o z = none ∧ o ≠ 0 ∧
      registerWriteWork o z w s = .settled (.next (writeRegister (o / 4) w s))) := by
  unfold registerWriteWork
  cases h : registerForbidden o z with
  | some why => exact .inl ⟨why, rfl, rfl⟩
  | none =>
    by_cases h0 : o = 0
    · exact .inr (.inl ⟨rfl, h0, by simp [h0]⟩)
    · exact .inr (.inr ⟨rfl, h0, by simp [h0]⟩)

/-- What a host register write outside CMD does (10 R22, 44 R311). -/
theorem writeRegister_cases (k : Nat) (w : Word) (s : State) :
    writeRegister k w s = { s with arg0 := w } ∨ writeRegister k w s = { s with arg1 := w } ∨
      writeRegister k w s = { s with arg2 := w } ∨ writeRegister k w s = s := by
  unfold writeRegister
  split <;> simp

/-- What a host IN write does (44 R310). -/
theorem writeIn_cases (a : Nat) (b : Byte) (s : State) :
    (∃ why, writeIn a b s = refuseAccess why s) ∨
    (a < s.cfg.inCap ∧ appendLegal s.state = true ∧ s.inRecv.toNat ≤ a ∧ a < s.csize.toNat ∧
      writeIn a b s = { s with inp := s.inp.write a b }) := by
  unfold writeIn
  cases h : inWriteForbidden a s with
  | some why => exact .inl ⟨why, rfl⟩
  | none =>
    unfold inWriteForbidden at h
    split at h
    · cases h
    · split at h
      · rename_i h1 h2
        exact .inr ⟨by omega, h2.1, h2.2.1, h2.2.2, rfl⟩
      · cases h

/-- What a host OUT read does (44 R309). -/
theorem readOut_cases (a : Nat) (s : State) :
    (s.cfg.outCap ≤ a ∧ readOut a s = refuseAccess .outAddress s) ∨
    (a < s.cfg.outCap ∧ s.state = .done ∧ a < s.usize.toNat ∧
      readOut a s = answerHost ((outByte s a).setWidth 32) s) ∨
    (a < s.cfg.outCap ∧ ¬ (s.state = .done ∧ a < s.usize.toNat) ∧
      readOut a s = { answerHost ((Config.freeOutRead s.freeReads).setWidth 32) s with freeReads := s.freeReads + 1 }) := by
  unfold readOut
  split
  · exact .inl ⟨‹_›, rfl⟩
  · split
    · rename_i h1 h2
      exact .inr (.inl ⟨by omega, h2.1, h2.2, rfl⟩)
    · exact .inr (.inr ⟨by omega, ‹_›, rfl⟩)

/-- A refused host write to OUT (70 R392). -/
theorem writeOut_eq (a : Nat) (b : Byte) (s : State) : ∃ why, writeOut a b s = refuseAccess why s := by
  unfold writeOut
  split <;> exact ⟨_, rfl⟩

/-- What a host register read does (44 R311). -/
theorem readRegister_cases (o z : Nat) (s : State) :
    (∃ why, readRegister o z s = refuseAccess why s) ∨ (∃ v, readRegister o z s = answerHost v s) := by
  unfold readRegister
  split
  · exact .inl ⟨_, rfl⟩
  · exact .inr ⟨_, rfl⟩

/-- A refused access leaves a refusal mark (70, before R390). -/
theorem refuseAccess_marks (why : Forbidden) (s : State) : (refuseAccess why s).refusalMark ≠ none := by
  simp only [refuseAccess_refusalMark]
  cases s.refusalMark <;> simp

end Sys2Proof.Machine
end

