-- ==== Sys2Proof/Laws/PerInstr.lean ====
section
/-! SUPPORT. Laws stated of every instruction, one lemma per constructor. -/

namespace Sys2Proof.Laws

/-- A command row is encoded as a CMD word, every other row as stream bits (30 R90, R107). -/
def EncodedKind.Statement (i : Instr) : Prop :=
  ∀ (c : DecodeCtx) (p : Nat),
    if i.isCommand then ∃ w, encode c p i = .command w else ∃ bs, encode c p i = .bits bs

theorem EncodedKind.nop : EncodedKind.Statement (.nop) :=
  fun _ _ => ⟨_, rfl⟩

theorem EncodedKind.openSession : EncodedKind.Statement (.openSession) :=
  fun _ _ => ⟨_, rfl⟩

theorem EncodedKind.closeSession : EncodedKind.Statement (.closeSession) :=
  fun _ _ => ⟨_, rfl⟩

theorem EncodedKind.startEntry : EncodedKind.Statement (.startEntry) :=
  fun _ _ => ⟨_, rfl⟩

theorem EncodedKind.appendInput : EncodedKind.Statement (.appendInput) :=
  fun _ _ => ⟨_, rfl⟩

theorem EncodedKind.illegalOpcode (op : BitVec 8) : EncodedKind.Statement (.illegalOpcode op) :=
  fun _ _ => ⟨_, rfl⟩

theorem EncodedKind.blockStored (f : Bool) : EncodedKind.Statement (.blockStored f) :=
  fun _ _ => ⟨_, rfl⟩

theorem EncodedKind.blockFixed (f : Bool) : EncodedKind.Statement (.blockFixed f) :=
  fun _ _ => ⟨_, rfl⟩

theorem EncodedKind.blockDynamic (f : Bool) : EncodedKind.Statement (.blockDynamic f) :=
  fun _ _ => ⟨_, rfl⟩

theorem EncodedKind.blockReserved (f : Bool) : EncodedKind.Statement (.blockReserved f) :=
  fun _ _ => ⟨_, rfl⟩

theorem EncodedKind.storedHdr (len : BitVec 16) (nlen : BitVec 16) : EncodedKind.Statement (.storedHdr len nlen) :=
  fun _ _ => ⟨_, rfl⟩

theorem EncodedKind.storedByte (b : Byte) : EncodedKind.Statement (.storedByte b) :=
  fun _ _ => ⟨_, rfl⟩

theorem EncodedKind.dynCounts (l : BitVec 5) (d : BitVec 5) (c : BitVec 4) : EncodedKind.Statement (.dynCounts l d c) :=
  fun _ _ => ⟨_, rfl⟩

theorem EncodedKind.dynCllen (ls : List (BitVec 3)) : EncodedKind.Statement (.dynCllen ls) :=
  fun _ _ => ⟨_, rfl⟩

theorem EncodedKind.clLen (n : BitVec 4) : EncodedKind.Statement (.clLen n) :=
  fun _ _ => ⟨_, rfl⟩

theorem EncodedKind.clRepeatPrev (r : BitVec 2) : EncodedKind.Statement (.clRepeatPrev r) :=
  fun _ _ => ⟨_, rfl⟩

theorem EncodedKind.clRepeatZeroShort (r : BitVec 3) : EncodedKind.Statement (.clRepeatZeroShort r) :=
  fun _ _ => ⟨_, rfl⟩

theorem EncodedKind.clRepeatZeroLong (r : BitVec 7) : EncodedKind.Statement (.clRepeatZeroLong r) :=
  fun _ _ => ⟨_, rfl⟩

theorem EncodedKind.lit (b : Byte) : EncodedKind.Statement (.lit b) :=
  fun _ _ => ⟨_, rfl⟩

theorem EncodedKind.eob : EncodedKind.Statement (.eob) :=
  fun _ _ => ⟨_, rfl⟩

theorem EncodedKind.matchL257 (d : BitVec 5) (x : BitVec 13) : EncodedKind.Statement (.matchL257 d x) :=
  fun _ _ => ⟨_, rfl⟩

theorem EncodedKind.matchL258 (d : BitVec 5) (x : BitVec 13) : EncodedKind.Statement (.matchL258 d x) :=
  fun _ _ => ⟨_, rfl⟩

theorem EncodedKind.matchL259 (d : BitVec 5) (x : BitVec 13) : EncodedKind.Statement (.matchL259 d x) :=
  fun _ _ => ⟨_, rfl⟩

theorem EncodedKind.matchL260 (d : BitVec 5) (x : BitVec 13) : EncodedKind.Statement (.matchL260 d x) :=
  fun _ _ => ⟨_, rfl⟩

theorem EncodedKind.matchL261 (d : BitVec 5) (x : BitVec 13) : EncodedKind.Statement (.matchL261 d x) :=
  fun _ _ => ⟨_, rfl⟩

theorem EncodedKind.matchL262 (d : BitVec 5) (x : BitVec 13) : EncodedKind.Statement (.matchL262 d x) :=
  fun _ _ => ⟨_, rfl⟩

theorem EncodedKind.matchL263 (d : BitVec 5) (x : BitVec 13) : EncodedKind.Statement (.matchL263 d x) :=
  fun _ _ => ⟨_, rfl⟩

theorem EncodedKind.matchL264 (d : BitVec 5) (x : BitVec 13) : EncodedKind.Statement (.matchL264 d x) :=
  fun _ _ => ⟨_, rfl⟩

theorem EncodedKind.matchL265 (e : BitVec 1) (d : BitVec 5) (x : BitVec 13) : EncodedKind.Statement (.matchL265 e d x) :=
  fun _ _ => ⟨_, rfl⟩

theorem EncodedKind.matchL266 (e : BitVec 1) (d : BitVec 5) (x : BitVec 13) : EncodedKind.Statement (.matchL266 e d x) :=
  fun _ _ => ⟨_, rfl⟩

theorem EncodedKind.matchL267 (e : BitVec 1) (d : BitVec 5) (x : BitVec 13) : EncodedKind.Statement (.matchL267 e d x) :=
  fun _ _ => ⟨_, rfl⟩

theorem EncodedKind.matchL268 (e : BitVec 1) (d : BitVec 5) (x : BitVec 13) : EncodedKind.Statement (.matchL268 e d x) :=
  fun _ _ => ⟨_, rfl⟩

theorem EncodedKind.matchL269 (e : BitVec 2) (d : BitVec 5) (x : BitVec 13) : EncodedKind.Statement (.matchL269 e d x) :=
  fun _ _ => ⟨_, rfl⟩

theorem EncodedKind.matchL270 (e : BitVec 2) (d : BitVec 5) (x : BitVec 13) : EncodedKind.Statement (.matchL270 e d x) :=
  fun _ _ => ⟨_, rfl⟩

theorem EncodedKind.matchL271 (e : BitVec 2) (d : BitVec 5) (x : BitVec 13) : EncodedKind.Statement (.matchL271 e d x) :=
  fun _ _ => ⟨_, rfl⟩

theorem EncodedKind.matchL272 (e : BitVec 2) (d : BitVec 5) (x : BitVec 13) : EncodedKind.Statement (.matchL272 e d x) :=
  fun _ _ => ⟨_, rfl⟩

theorem EncodedKind.matchL273 (e : BitVec 3) (d : BitVec 5) (x : BitVec 13) : EncodedKind.Statement (.matchL273 e d x) :=
  fun _ _ => ⟨_, rfl⟩

theorem EncodedKind.matchL274 (e : BitVec 3) (d : BitVec 5) (x : BitVec 13) : EncodedKind.Statement (.matchL274 e d x) :=
  fun _ _ => ⟨_, rfl⟩

theorem EncodedKind.matchL275 (e : BitVec 3) (d : BitVec 5) (x : BitVec 13) : EncodedKind.Statement (.matchL275 e d x) :=
  fun _ _ => ⟨_, rfl⟩

theorem EncodedKind.matchL276 (e : BitVec 3) (d : BitVec 5) (x : BitVec 13) : EncodedKind.Statement (.matchL276 e d x) :=
  fun _ _ => ⟨_, rfl⟩

theorem EncodedKind.matchL277 (e : BitVec 4) (d : BitVec 5) (x : BitVec 13) : EncodedKind.Statement (.matchL277 e d x) :=
  fun _ _ => ⟨_, rfl⟩

theorem EncodedKind.matchL278 (e : BitVec 4) (d : BitVec 5) (x : BitVec 13) : EncodedKind.Statement (.matchL278 e d x) :=
  fun _ _ => ⟨_, rfl⟩

theorem EncodedKind.matchL279 (e : BitVec 4) (d : BitVec 5) (x : BitVec 13) : EncodedKind.Statement (.matchL279 e d x) :=
  fun _ _ => ⟨_, rfl⟩

theorem EncodedKind.matchL280 (e : BitVec 4) (d : BitVec 5) (x : BitVec 13) : EncodedKind.Statement (.matchL280 e d x) :=
  fun _ _ => ⟨_, rfl⟩

theorem EncodedKind.matchL281 (e : BitVec 5) (d : BitVec 5) (x : BitVec 13) : EncodedKind.Statement (.matchL281 e d x) :=
  fun _ _ => ⟨_, rfl⟩

theorem EncodedKind.matchL282 (e : BitVec 5) (d : BitVec 5) (x : BitVec 13) : EncodedKind.Statement (.matchL282 e d x) :=
  fun _ _ => ⟨_, rfl⟩

theorem EncodedKind.matchL283 (e : BitVec 5) (d : BitVec 5) (x : BitVec 13) : EncodedKind.Statement (.matchL283 e d x) :=
  fun _ _ => ⟨_, rfl⟩

theorem EncodedKind.matchL284 (e : BitVec 5) (d : BitVec 5) (x : BitVec 13) : EncodedKind.Statement (.matchL284 e d x) :=
  fun _ _ => ⟨_, rfl⟩

theorem EncodedKind.matchL285 (d : BitVec 5) (x : BitVec 13) : EncodedKind.Statement (.matchL285 d x) :=
  fun _ _ => ⟨_, rfl⟩

theorem EncodedKind.litlenInvalid286 : EncodedKind.Statement (.litlenInvalid286) :=
  fun _ _ => ⟨_, rfl⟩

theorem EncodedKind.litlenInvalid287 : EncodedKind.Statement (.litlenInvalid287) :=
  fun _ _ => ⟨_, rfl⟩

theorem EncodedKind.dist0 : EncodedKind.Statement (.dist0) :=
  fun _ _ => ⟨_, rfl⟩

theorem EncodedKind.dist1 : EncodedKind.Statement (.dist1) :=
  fun _ _ => ⟨_, rfl⟩

theorem EncodedKind.dist2 : EncodedKind.Statement (.dist2) :=
  fun _ _ => ⟨_, rfl⟩

theorem EncodedKind.dist3 : EncodedKind.Statement (.dist3) :=
  fun _ _ => ⟨_, rfl⟩

theorem EncodedKind.dist4 (x : BitVec 1) : EncodedKind.Statement (.dist4 x) :=
  fun _ _ => ⟨_, rfl⟩

theorem EncodedKind.dist5 (x : BitVec 1) : EncodedKind.Statement (.dist5 x) :=
  fun _ _ => ⟨_, rfl⟩

theorem EncodedKind.dist6 (x : BitVec 2) : EncodedKind.Statement (.dist6 x) :=
  fun _ _ => ⟨_, rfl⟩

theorem EncodedKind.dist7 (x : BitVec 2) : EncodedKind.Statement (.dist7 x) :=
  fun _ _ => ⟨_, rfl⟩

theorem EncodedKind.dist8 (x : BitVec 3) : EncodedKind.Statement (.dist8 x) :=
  fun _ _ => ⟨_, rfl⟩

theorem EncodedKind.dist9 (x : BitVec 3) : EncodedKind.Statement (.dist9 x) :=
  fun _ _ => ⟨_, rfl⟩

theorem EncodedKind.dist10 (x : BitVec 4) : EncodedKind.Statement (.dist10 x) :=
  fun _ _ => ⟨_, rfl⟩

theorem EncodedKind.dist11 (x : BitVec 4) : EncodedKind.Statement (.dist11 x) :=
  fun _ _ => ⟨_, rfl⟩

theorem EncodedKind.dist12 (x : BitVec 5) : EncodedKind.Statement (.dist12 x) :=
  fun _ _ => ⟨_, rfl⟩

theorem EncodedKind.dist13 (x : BitVec 5) : EncodedKind.Statement (.dist13 x) :=
  fun _ _ => ⟨_, rfl⟩

theorem EncodedKind.dist14 (x : BitVec 6) : EncodedKind.Statement (.dist14 x) :=
  fun _ _ => ⟨_, rfl⟩

theorem EncodedKind.dist15 (x : BitVec 6) : EncodedKind.Statement (.dist15 x) :=
  fun _ _ => ⟨_, rfl⟩

theorem EncodedKind.dist16 (x : BitVec 7) : EncodedKind.Statement (.dist16 x) :=
  fun _ _ => ⟨_, rfl⟩

theorem EncodedKind.dist17 (x : BitVec 7) : EncodedKind.Statement (.dist17 x) :=
  fun _ _ => ⟨_, rfl⟩

theorem EncodedKind.dist18 (x : BitVec 8) : EncodedKind.Statement (.dist18 x) :=
  fun _ _ => ⟨_, rfl⟩

theorem EncodedKind.dist19 (x : BitVec 8) : EncodedKind.Statement (.dist19 x) :=
  fun _ _ => ⟨_, rfl⟩

theorem EncodedKind.dist20 (x : BitVec 9) : EncodedKind.Statement (.dist20 x) :=
  fun _ _ => ⟨_, rfl⟩

theorem EncodedKind.dist21 (x : BitVec 9) : EncodedKind.Statement (.dist21 x) :=
  fun _ _ => ⟨_, rfl⟩

theorem EncodedKind.dist22 (x : BitVec 10) : EncodedKind.Statement (.dist22 x) :=
  fun _ _ => ⟨_, rfl⟩

theorem EncodedKind.dist23 (x : BitVec 10) : EncodedKind.Statement (.dist23 x) :=
  fun _ _ => ⟨_, rfl⟩

theorem EncodedKind.dist24 (x : BitVec 11) : EncodedKind.Statement (.dist24 x) :=
  fun _ _ => ⟨_, rfl⟩

theorem EncodedKind.dist25 (x : BitVec 11) : EncodedKind.Statement (.dist25 x) :=
  fun _ _ => ⟨_, rfl⟩

theorem EncodedKind.dist26 (x : BitVec 12) : EncodedKind.Statement (.dist26 x) :=
  fun _ _ => ⟨_, rfl⟩

theorem EncodedKind.dist27 (x : BitVec 12) : EncodedKind.Statement (.dist27 x) :=
  fun _ _ => ⟨_, rfl⟩

theorem EncodedKind.dist28 (x : BitVec 13) : EncodedKind.Statement (.dist28 x) :=
  fun _ _ => ⟨_, rfl⟩

theorem EncodedKind.dist29 (x : BitVec 13) : EncodedKind.Statement (.dist29 x) :=
  fun _ _ => ⟨_, rfl⟩

theorem EncodedKind.distInvalid30 : EncodedKind.Statement (.distInvalid30) :=
  fun _ _ => ⟨_, rfl⟩

theorem EncodedKind.distInvalid31 : EncodedKind.Statement (.distInvalid31) :=
  fun _ _ => ⟨_, rfl⟩

theorem EncodedKind.rawByte (b : Byte) : EncodedKind.Statement (.rawByte b) :=
  fun _ _ => ⟨_, rfl⟩

end Sys2Proof.Laws
end

