-- ==== Sys2Proof/Tests/Slice0.lean ====
section
/-! SUPPORT. Our own tests, and for each statement that has hypotheses a witness that meets them. The expected values
are those of 95_test_vectors.md or worked out by hand from the rule a test names. -/

namespace Sys2Proof.Tests

open Sys2Proof Sys2Proof.Machine

-- the kernel checks of `decide +kernel` run one after another, which bounds the compiler's threads
set_option Elab.async false

/-- The outcome is a next state for which `f` holds. -/
def holds (o : Host.Outcome State Fault Refusal) (f : State → Bool) : Bool :=
  match o with
  | .next t => f t
  | .fault _ => false
  | .refused _ => false

/-- A byte space holding these bytes from address 0 on. -/
def bytesAt (bs : List Byte) : Memory := bs.zipIdx.map (fun c => (c.2, c.1))

/-- In RUN with sub-state `d`, the cursor at bit `p` of the delivered slice `bs`, and an entry of `us` bytes. -/
def running (d : DState) (p : Nat) (bs : List Byte) (us : Nat) : State :=
  { State.reset with
    state := .run
    dstate := d
    method := if d = .raw then 0 else 8
    csize := BitVec.ofNat 32 bs.length
    inRecv := BitVec.ofNat 32 bs.length
    usize := BitVec.ofNat 32 us
    pos := BitVec.ofNat 32 p
    npos := BitVec.ofNat 32 p
    inp := bytesAt bs }

/-- A running state in a fixed block, with `o` already written to OUT. -/
def inFixed (p : Nat) (bs : List Byte) (us : Nat) (o : List Byte) : State :=
  { running .huffData p bs us with
    bfinal := true
    btype := 1
    tLit := tFixLit
    tDist := tFixDist
    out := bytesAt o
    outPtr := BitVec.ofNat 32 o.length
    progFile := BitVec.ofNat 32 o.length
    progTotal := BitVec.ofNat 64 o.length }

/-- A running state that reads code lengths: HLIT, HDIST, LIDX and what LENS holds below LIDX. -/
def inLengths (hl hd : Nat) (done : List (BitVec 4)) : State :=
  { running .dynLens 29 [0, 0, 0, 0, 0, 0] 0 with
    npos := 33
    btype := 2
    hlit := BitVec.ofNat 9 hl
    hdist := BitVec.ofNat 6 hd
    lens := done ++ List.replicate (316 - done.length) 0
    lidx := BitVec.ofNat 9 done.length }

/-- The code-length code 5 = 00, 0 = 010, 7 = 011, 8 = 100, 16 = 101, 17 = 110, 18 = 111. -/
def sampleCl : HuffTable := tableOf [3, 0, 0, 0, 0, 2, 0, 3, 3, 0, 0, 0, 0, 0, 0, 0, 3, 3, 3] 7

/-- The errors registers, the cursor and OUT_PTR. -/
def errorRow (t : State) : BitVec 8 × Word × Word × Word × Word := (t.errcode, t.errpos, t.erraux, t.pos, t.outPtr)

/-! ## WellFormed: each check refuses an ill-formed term -/

/-- Opcodes 0 to 4 are no illegal opcodes (30 R108). -/
theorem test_wf_opcode : (Instr.illegalOpcode 4).wf = false ∧ (Instr.illegalOpcode 5).wf = true := by decide

/-- A code-length-code element has 4 to 19 lengths (30 R96). -/
theorem test_wf_cllen :
    (Instr.dynCllen (List.replicate 3 0)).wf = false ∧ (Instr.dynCllen (List.replicate 4 0)).wf = true ∧
    (Instr.dynCllen (List.replicate 19 0)).wf = true ∧ (Instr.dynCllen (List.replicate 20 0)).wf = false := by decide

/-- A distance extra value fits the bits of its symbol: 1 bit for symbol 4, none for 3 and 30, 13 for 29 (30 R101). -/
theorem test_wf_distance :
    (Instr.matchL257 4 2).wf = false ∧ (Instr.matchL257 4 1).wf = true ∧ (Instr.matchL258 3 1).wf = false ∧
    (Instr.matchL265 1 30 1).wf = false ∧ (Instr.matchL285 29 8191).wf = true := by decide

/-! ## Decoding: words and streams written out from 30_encoding.md (the bits of each stand above it) -/

/-- CMD words: bits 7:0 select the command, bits 31:8 are ignored (30 R107, R108; 95 V-L2-C16). -/
theorem test_decode_commands :
    decodeCommand 0x12345600 = .nop ∧ decodeCommand 0x00000001 = .openSession ∧
    decodeCommand 0xFFFFFF02 = .closeSession ∧ decodeCommand 0x00000003 = .startEntry ∧
    decodeCommand 0x80000104 = .appendInput ∧ decodeCommand 0x00000005 = .illegalOpcode 0x05 ∧
    decodeCommand 0x000000FF = .illegalOpcode 0xFF := by
  decide +kernel

/-- The opcode table's words (R301-R306, R308), read as the host reads them. -/
theorem test_table_words :
    decodeTableWord 32 0 = some .nop ∧ decodeTableWord 32 1 = some .openSession ∧
    decodeTableWord 32 2 = some .closeSession ∧ decodeTableWord 32 3 = some .startEntry ∧
    decodeTableWord 32 4 = some .appendInput ∧ decodeTableWord 8 0x05 = some (.illegalOpcode 0x05) := by
  decide +kernel

/-- Block headers: BFINAL, then BTYPE low bit first (30 R92). -/
theorem test_decode_block_headers :
    -- 1 00
    decodeBlockHeader (streamOfBytes [0x01]) 0 = .ok (.blockStored true, 3) ∧
    -- 0 10
    decodeBlockHeader (streamOfBytes [0x40]) 5 = .ok (.blockFixed false, 8) ∧
    -- 1 01
    decodeBlockHeader (streamOfBytes [0x80, 0x02]) 7 = .ok (.blockDynamic true, 10) ∧
    -- 0 11
    decodeBlockHeader (streamOfBytes [0x06]) 0 = .ok (.blockReserved false, 3) := by
  decide +kernel

/-- Stored header from a byte boundary: LEN 0x1234, NLEN 0xEDCB (30 R93). -/
theorem test_decode_stored_header :
    -- 0010110001001000 1101001110110111
    decodeStoredHdr (streamOfBytes [0x00, 0x34, 0x12, 0xCB, 0xED]) 8 = .ok (.storedHdr 0x1234 0xEDCB, 40) := by
  decide +kernel

/-- A stored header inside a byte discards the rest of the byte (30 R93; 95 V-L2-B7). -/
theorem test_decode_stored_header_aligns :
    decodeStoredHdr (streamOfBytes [0xFF, 0x34, 0x12, 0xCB, 0xED]) 3 = .ok (.storedHdr 0x1234 0xEDCB, 40) := by
  decide +kernel

/-- A stored byte and a raw byte (30 R94, R110). -/
theorem test_decode_stored_byte :
    -- 10001101
    decodeStoredByte (streamOfBytes [0x00, 0xB1]) 8 = .ok (.storedByte 0xB1, 16) := by
  decide +kernel

/-- A raw byte (30 R110). -/
theorem test_decode_raw_byte :
    -- 10001101
    decodeRawByte false (streamOfBytes [0x00, 0x00, 0xB1]) 16 = .ok (.rawByte 0xB1, 24) := by
  decide +kernel

/-- Dynamic counts: 5, 5 and 4 bits (30 R95). -/
theorem test_decode_counts :
    -- 10111 11010 0111
    decodeDynCounts (streamOfBytes [0xE8, 0xCB, 0x01]) 3 = .ok (.dynCounts 0x1D 0x0B 0xE, 17) := by
  decide +kernel

/-- Code-length-code lengths: 3 bits each, in CLORDER (30 R96). -/
theorem test_decode_cllen :
    -- 001 100 011 110 101
    decodeDynCllen 5 (streamOfBytes [0x18, 0xAF]) 1 = .ok (.dynCllen [4, 1, 6, 3, 5], 16) := by
  decide +kernel

/-- Code-length symbols, with the code 5 = 00, 0 = 010, 7 = 011, 8 = 100, 16 = 101, 17 = 110, 18 = 111 (30 R97). -/
theorem test_decode_code_lengths :
    -- 00
    decodeClSymbol sampleCl 1 (streamOfBytes [0x00]) 0 = .ok (.clLen 5, 2) ∧
    -- 011
    decodeClSymbol sampleCl 1 (streamOfBytes [0x18]) 2 = .ok (.clLen 7, 5) ∧
    -- 101 01
    decodeClSymbol sampleCl 1 (streamOfBytes [0x15]) 0 = .ok (.clRepeatPrev 2, 5) ∧
    -- 110 001
    decodeClSymbol sampleCl 1 (streamOfBytes [0x46]) 1 = .ok (.clRepeatZeroShort 4, 7) ∧
    -- 111 0110101
    decodeClSymbol sampleCl 1 (streamOfBytes [0xB7, 0x02]) 0 = .ok (.clRepeatZeroLong 0x56, 10) := by
  decide +kernel

/-- Symbol 16 with no previous length reads no extra bits (41 R182; 95 V-L2-H13). -/
theorem test_decode_repeat_at_start :
    decodeClSymbol sampleCl 0 (streamOfBytes [0x05]) 0 = .ok (.clRepeatPrev 0, 3) := by
  decide +kernel

/-- Literals, end of block and the invalid symbols in the fixed code (30 R98, R102). -/
theorem test_decode_literals :
    -- 00110000
    decodeData tFixLit tFixDist (streamOfBytes [0x0C]) 0 = .ok (.lit 0x00, 8) ∧
    -- 10010001
    decodeData tFixLit tFixDist (streamOfBytes [0x24, 0x02]) 2 = .ok (.lit 0x61, 10) ∧
    -- 10111111
    decodeData tFixLit tFixDist (streamOfBytes [0xE8, 0x07]) 3 = .ok (.lit 0x8F, 11) ∧
    -- 110010000
    decodeData tFixLit tFixDist (streamOfBytes [0x30, 0x01]) 4 = .ok (.lit 0x90, 13) ∧
    -- 111111111
    decodeData tFixLit tFixDist (streamOfBytes [0xFF, 0x01]) 0 = .ok (.lit 0xFF, 9) ∧
    -- 0000000
    decodeData tFixLit tFixDist (streamOfBytes [0x00]) 1 = .ok (.eob, 8) ∧
    -- 11000110
    decodeData tFixLit tFixDist (streamOfBytes [0x63]) 0 = .ok (.litlenInvalid286, 8) ∧
    -- 11000111
    decodeData tFixLit tFixDist (streamOfBytes [0x18, 0x07]) 3 = .ok (.litlenInvalid287, 11) := by
  decide +kernel

/-- Matches in the fixed codes: length code, length extra bits, distance code, distance extra bits (30 R98, R100-R103). -/
theorem test_decode_matches_1 :
    -- 0000001 00000
    decodeData tFixLit tFixDist (streamOfBytes [0x40, 0x00]) 0 = .ok (.matchL257 0 0, 12) ∧
    -- 0000010 00001
    decodeData tFixLit tFixDist (streamOfBytes [0x40, 0x10]) 1 = .ok (.matchL258 1 0, 13) ∧
    -- 0000011 00010
    decodeData tFixLit tFixDist (streamOfBytes [0x80, 0x11]) 2 = .ok (.matchL259 2 0, 14) ∧
    -- 0000100 00011
    decodeData tFixLit tFixDist (streamOfBytes [0x80, 0x60]) 3 = .ok (.matchL260 3 0, 15) ∧
    -- 0000101 00100 1
    decodeData tFixLit tFixDist (streamOfBytes [0x00, 0x25, 0x01]) 4 = .ok (.matchL261 4 1, 17) ∧
    -- 0000110 00101 1
    decodeData tFixLit tFixDist (streamOfBytes [0x00, 0x46, 0x03]) 5 = .ok (.matchL262 5 1, 18) ∧
    -- 0000111 00110 11
    decodeData tFixLit tFixDist (streamOfBytes [0x70, 0x36]) 0 = .ok (.matchL263 6 3, 14) ∧
    -- 0001000 00111 01
    decodeData tFixLit tFixDist (streamOfBytes [0x10, 0x5C]) 1 = .ok (.matchL264 7 2, 15) ∧
    -- 0001001 1 01000 101
    decodeData tFixLit tFixDist (streamOfBytes [0x20, 0x8B, 0x02]) 2 = .ok (.matchL265 1 8 5, 18) ∧
    -- 0001010 1 01001 101
    decodeData tFixLit tFixDist (streamOfBytes [0x40, 0x95, 0x05]) 3 = .ok (.matchL266 1 9 5, 19) ∧
    -- 0001011 1 01010 0101
    decodeData tFixLit tFixDist (streamOfBytes [0x80, 0xAE, 0x14]) 4 = .ok (.matchL267 1 10 10, 21) ∧
    -- 0001100 1 01011 1011
    decodeData tFixLit tFixDist (streamOfBytes [0x00, 0x53, 0x37]) 5 = .ok (.matchL268 1 11 13, 22) ∧
    -- 0001101 11 01100 10101
    decodeData tFixLit tFixDist (streamOfBytes [0xD8, 0x4D, 0x05]) 0 = .ok (.matchL269 3 12 21, 19) ∧
    -- 0001110 01 01101 01011
    decodeData tFixLit tFixDist (streamOfBytes [0x70, 0x5A, 0x0D]) 1 = .ok (.matchL270 2 13 26, 20) ∧
    -- 0001111 11 01110 101011
    decodeData tFixLit tFixDist (streamOfBytes [0xE0, 0x77, 0x35]) 2 = .ok (.matchL271 3 14 53, 22) ∧
    -- 0010000 01 01111 101011
    decodeData tFixLit tFixDist (streamOfBytes [0x20, 0xE8, 0x6B]) 3 = .ok (.matchL272 2 15 53, 23) := by
  decide +kernel

/-- Matches in the fixed codes: length code, length extra bits, distance code, distance extra bits (30 R98, R100-R103). -/
theorem test_decode_matches_2 :
    -- 0010001 101 10000 0101011
    decodeData tFixLit tFixDist (streamOfBytes [0x40, 0x6C, 0x50, 0x03]) 4 = .ok (.matchL273 5 16 106, 26) ∧
    -- 0010010 011 10001 1010111
    decodeData tFixLit tFixDist (streamOfBytes [0x80, 0xE4, 0x58, 0x07]) 5 = .ok (.matchL274 6 17 117, 27) ∧
    -- 0010011 101 10010 10101011
    decodeData tFixLit tFixDist (streamOfBytes [0xE4, 0xA6, 0x6A]) 0 = .ok (.matchL275 5 18 213, 23) ∧
    -- 0010100 011 10011 01010111
    decodeData tFixLit tFixDist (streamOfBytes [0x28, 0xCE, 0xEA]) 1 = .ok (.matchL276 6 19 234, 24) ∧
    -- 0010101 1011 10100 101011011
    decodeData tFixLit tFixDist (streamOfBytes [0x50, 0xBB, 0xD4, 0x06]) 2 = .ok (.matchL277 13 20 437, 27) ∧
    -- 0010110 0101 10101 101010111
    decodeData tFixLit tFixDist (streamOfBytes [0xA0, 0x69, 0xAD, 0x0E]) 3 = .ok (.matchL278 10 21 469, 28) ∧
    -- 0010111 1011 10110 0101011011
    decodeData tFixLit tFixDist (streamOfBytes [0x40, 0xEF, 0xA6, 0x36]) 4 = .ok (.matchL279 13 22 874, 30) ∧
    -- 11000000 0101 10111 1010110101
    decodeData tFixLit tFixDist (streamOfBytes [0x60, 0x40, 0x7B, 0xAD]) 5 = .ok (.matchL280 10 23 693, 32) ∧
    -- 11000001 10101 11000 10101011011
    decodeData tFixLit tFixDist (streamOfBytes [0x83, 0x75, 0x54, 0x1B]) 0 = .ok (.matchL281 21 24 1749, 29) ∧
    -- 11000010 01011 11001 01010110101
    decodeData tFixLit tFixDist (streamOfBytes [0x86, 0xF4, 0x54, 0x2B]) 1 = .ok (.matchL282 26 25 1386, 30) ∧
    -- 11000011 10101 11010 101011010001
    decodeData tFixLit tFixDist (streamOfBytes [0x0C, 0xD7, 0x55, 0x8B]) 2 = .ok (.matchL283 21 26 2229, 32) ∧
    -- 11000100 01011 11011 101010110101
    decodeData tFixLit tFixDist (streamOfBytes [0x18, 0xD1, 0xBB, 0x5A, 0x01]) 3 = .ok (.matchL284 26 27 2773, 33) ∧
    -- 11000101 11101 0101011010001
    decodeData tFixLit tFixDist (streamOfBytes [0x30, 0x7A, 0xD5, 0x22]) 4 = .ok (.matchL285 29 4458, 30) ∧
    -- 0000001 11110
    decodeData tFixLit tFixDist (streamOfBytes [0x00, 0x3E]) 3 = .ok (.matchL257 30 0, 15) ∧
    -- 0000010 11111
    decodeData tFixLit tFixDist (streamOfBytes [0x00, 0x7D]) 3 = .ok (.matchL258 31 0, 15) := by
  decide +kernel

/-- Distance fields inside a match, in the fixed code (30 R98, R101, R103). -/
theorem test_decode_distances_1 :
    -- 00000
    decodeDistanceField tFixDist 0 (streamOfBytes [0x00]) 0 = .ok (.dist0, 5) ∧
    -- 00001
    decodeDistanceField tFixDist 0 (streamOfBytes [0x20]) 1 = .ok (.dist1, 6) ∧
    -- 00010
    decodeDistanceField tFixDist 0 (streamOfBytes [0x20]) 2 = .ok (.dist2, 7) ∧
    -- 00011
    decodeDistanceField tFixDist 0 (streamOfBytes [0xC0]) 3 = .ok (.dist3, 8) ∧
    -- 00100 1
    decodeDistanceField tFixDist 0 (streamOfBytes [0x40, 0x02]) 4 = .ok (.dist4 1, 10) ∧
    -- 00101 1
    decodeDistanceField tFixDist 0 (streamOfBytes [0x80, 0x06]) 5 = .ok (.dist5 1, 11) ∧
    -- 00110 01
    decodeDistanceField tFixDist 0 (streamOfBytes [0x00, 0x13]) 6 = .ok (.dist6 2, 13) ∧
    -- 00111 11
    decodeDistanceField tFixDist 0 (streamOfBytes [0x7C]) 0 = .ok (.dist7 3, 7) ∧
    -- 01000 011
    decodeDistanceField tFixDist 0 (streamOfBytes [0x84, 0x01]) 1 = .ok (.dist8 6, 9) ∧
    -- 01001 101
    decodeDistanceField tFixDist 0 (streamOfBytes [0xC8, 0x02]) 2 = .ok (.dist9 5, 10) ∧
    -- 01010 0101
    decodeDistanceField tFixDist 0 (streamOfBytes [0x50, 0x0A]) 3 = .ok (.dist10 10, 12) ∧
    -- 01011 1011
    decodeDistanceField tFixDist 0 (streamOfBytes [0xA0, 0x1B]) 4 = .ok (.dist11 13, 13) ∧
    -- 01100 01011
    decodeDistanceField tFixDist 0 (streamOfBytes [0xC0, 0x68]) 5 = .ok (.dist12 26, 15) ∧
    -- 01101 10101
    decodeDistanceField tFixDist 0 (streamOfBytes [0x80, 0xAD]) 6 = .ok (.dist13 21, 16) ∧
    -- 01110 010111
    decodeDistanceField tFixDist 0 (streamOfBytes [0x4E, 0x07]) 0 = .ok (.dist14 58, 11) ∧
    -- 01111 101011
    decodeDistanceField tFixDist 0 (streamOfBytes [0x7C, 0x0D]) 1 = .ok (.dist15 53, 12) := by
  decide +kernel

/-- Distance fields inside a match, in the fixed code (30 R98, R101, R103). -/
theorem test_decode_distances_2 :
    -- 10000 0101011
    decodeDistanceField tFixDist 0 (streamOfBytes [0x04, 0x35]) 2 = .ok (.dist16 106, 14) ∧
    -- 10001 1010111
    decodeDistanceField tFixDist 0 (streamOfBytes [0x88, 0x75]) 3 = .ok (.dist17 117, 15) ∧
    -- 10010 01011011
    decodeDistanceField tFixDist 0 (streamOfBytes [0x90, 0xB4, 0x01]) 4 = .ok (.dist18 218, 17) ∧
    -- 10011 10101011
    decodeDistanceField tFixDist 0 (streamOfBytes [0x20, 0x57, 0x03]) 5 = .ok (.dist19 213, 18) ∧
    -- 10100 010101101
    decodeDistanceField tFixDist 0 (streamOfBytes [0x40, 0x51, 0x0B]) 6 = .ok (.dist20 362, 20) ∧
    -- 10101 101011011
    decodeDistanceField tFixDist 0 (streamOfBytes [0xB5, 0x36]) 0 = .ok (.dist21 437, 14) ∧
    -- 10110 0101101001
    decodeDistanceField tFixDist 0 (streamOfBytes [0x9A, 0x96]) 1 = .ok (.dist22 602, 16) ∧
    -- 10111 1010101101
    decodeDistanceField tFixDist 0 (streamOfBytes [0xF4, 0x6A, 0x01]) 2 = .ok (.dist23 725, 17) ∧
    -- 11000 01010110101
    decodeDistanceField tFixDist 0 (streamOfBytes [0x18, 0x6A, 0x05]) 3 = .ok (.dist24 1386, 19) ∧
    -- 11001 10101101001
    decodeDistanceField tFixDist 0 (streamOfBytes [0x30, 0x6B, 0x09]) 4 = .ok (.dist25 1205, 20) ∧
    -- 11010 010110100001
    decodeDistanceField tFixDist 0 (streamOfBytes [0x60, 0x69, 0x21]) 5 = .ok (.dist26 2138, 22) ∧
    -- 11011 101010110101
    decodeDistanceField tFixDist 0 (streamOfBytes [0xC0, 0xAE, 0x56]) 6 = .ok (.dist27 2773, 23) ∧
    -- 11100 0101011010001
    decodeDistanceField tFixDist 0 (streamOfBytes [0x47, 0x2D, 0x02]) 0 = .ok (.dist28 4458, 18) ∧
    -- 11101 1010110100001
    decodeDistanceField tFixDist 0 (streamOfBytes [0x6E, 0x2D, 0x04]) 1 = .ok (.dist29 4277, 19) ∧
    -- 11110
    decodeDistanceField tFixDist 0 (streamOfBytes [0x0F]) 0 = .ok (.distInvalid30, 5) ∧
    -- 11111
    decodeDistanceField tFixDist 0 (streamOfBytes [0x7C]) 2 = .ok (.distInvalid31, 7) := by
  decide +kernel

/-! ## Commands, as the first turn after reset -/

/-- NOP ignores bits 31:8 and changes nothing but the turn taken (44 R301; 95 V-L2-C16). -/
theorem test_nop : holds (step (State.reset.withFetchWord 32 0x12345600)) (fun t => t = State.reset) = true := by
  decide +kernel

/-- OPEN enters IDLE, CLOSE stays in CLOSED (95 V-L2-C18, V-L2-C19). -/
theorem test_open_close :
    holds (step (State.reset.withFetchWord 32 1)) (fun t => statusWord t = 0x001) = true ∧
    holds (step (State.reset.withFetchWord 32 2)) (fun t => statusWord t = 0x000) = true := by
  decide +kernel

/-- A bad opcode in CLOSED (95 V-L2-C1), then START_ENTRY 8, 0, 2, 2 in ERROR (95 V-L2-C2). -/
theorem test_illegal_opcode :
    holds (step (State.reset.withFetchWord 32 5))
      (fun t => statusWord t = 0x08D ∧ errorRow t = (0x1C, 0, 0x105, 0, 0)) = true := by
  decide +kernel

theorem test_start_in_error :
    holds (step (State.withFetchWord
      { State.reset with state := .error, taint := true, errcode := 0x1C, arg0 := 8, arg1 := 2, arg2 := 2 } 32 3))
      (fun t => statusWord t = 0x20A ∧ errorRow t = (0, 0, 0, 0, 0)) = true := by
  decide +kernel

/-- START_ENTRY ignores ARG0 bits 31:9 (95 V-L2-C17). -/
theorem test_start_argument_bits :
    holds (step (State.withFetchWord { State.reset with state := .idle, arg0 := 0x408, arg1 := 5, arg2 := 8 } 32 3))
      (fun t => statusWord t = 0x202 ∧ t.method = 8 ∧ t.solid = false ∧ t.csize = 5 ∧ t.usize = 8) = true := by
  decide +kernel

/-- APPEND_INPUT past CSIZE (95 V-L2-C13), and APPEND_INPUT 0 in WAITING, which restarts (95 V-L2-X2). -/
theorem test_append_past_end :
    holds (step (State.withFetchWord { running .blkHdr 0 [0x4B, 0x4C] 2 with csize := 4, arg0 := 3 } 32 4))
      (fun t => statusWord t = 0x08D ∧ errorRow t = (0x1C, 0, 0x404, 0, 0) ∧ t.inRecv = 2) = true := by
  decide +kernel

theorem test_append_resumes :
    holds (step (State.withFetchWord { inFixed 3 [0x4B] 2 [] with
        state := .waiting, dstate := .none, csize := 4, errcode := 3, errpos := 8, erraux := 1 } 32 4))
      (fun t => statusWord t = 0x202 ∧ errorRow t = (0, 0, 0, 0, 0) ∧ t.inRecv = 1 ∧ t.tLit.built = false) = true := by
  decide +kernel

/-! ## One engine step -/

/-- Program P1, steps 1, 4 and 5 (95 P1). -/
theorem test_fixed_header :
    holds (step (running .blkHdr 0 [0x73, 0x74, 0x82, 0x40, 0x00] 8))
      (fun t => t.pos = 3 ∧ t.dstate = .huffData ∧ t.bfinal = true ∧ t.btype = 1) = true := by
  decide +kernel

theorem test_match_overlaps :
    holds (step (inFixed 19 [0x73, 0x74, 0x82, 0x40, 0x00] 8 [0x41, 0x42]))
      (fun t => t.pos = 31 ∧ t.outPtr = 8 ∧ t.progFile = 8 ∧
        t.out = bytesAt [0x41, 0x42, 0x41, 0x42, 0x41, 0x42, 0x41, 0x42]) = true := by
  decide +kernel

theorem test_end_of_block_finishes :
    holds (step (inFixed 31 [0x73, 0x74, 0x82, 0x40, 0x00] 8 [0x41, 0x42, 0x41, 0x42, 0x41, 0x42, 0x41, 0x42]))
      (fun t => statusWord t = 0x0B4 ∧ t.pos = 38 ∧ t.filesDone = 1 ∧ t.evlog = [.extract 0 8] ∧
        t.hist = [[0x41, 0x42, 0x41, 0x42, 0x41, 0x42, 0x41, 0x42]]) = true := by
  decide +kernel

/-- The last literal of P4 and the match of P4 out of the history (95 P4, V-L1-5). -/
theorem test_literal :
    holds (step (inFixed 16 [0x03, 0x13, 0x8A, 0x00] 6 [0x48, 0x65, 0x6C, 0x6C, 0x6F]))
      (fun t => t.pos = 24 ∧ t.outPtr = 6 ∧ outByte t 5 = 0x21) = true := by
  decide +kernel

theorem test_match_reads_history :
    holds (step { inFixed 3 [0x03, 0x13, 0x8A, 0x00] 6 [] with solid := true, hist := [[0x48, 0x65, 0x6C], [0x6C, 0x6F]] })
      (fun t => t.pos = 16 ∧ t.out = bytesAt [0x48, 0x65, 0x6C, 0x6C, 0x6F]) = true := by
  decide +kernel

/-- A distance field with the length 4 already read: Out = "ab" after a history "Hello", distance 3 (95 V-L2-W5). -/
theorem test_distance_field :
    holds (step { inFixed 3 [0x40, 0x00] 6 [0x61, 0x62] with
        solid := true, hist := [[0x48, 0x65, 0x6C, 0x6C, 0x6F]], mlen := 4, npos := 3 })
      (fun t => t.pos = 8 ∧ t.mlen = 0 ∧ t.out = bytesAt [0x61, 0x62, 0x6F, 0x61, 0x62, 0x6F]) = true := by
  decide +kernel

/-- Errors of elements: BTYPE 3, NLEN, HLIT 287, HDIST 31 (95 V-L2-E1, E2, E7, E8). -/
theorem test_header_errors :
    holds (step (running .blkHdr 0 [0x07] 0)) (fun t => statusWord t = 0x08D ∧ errorRow t = (0x10, 0, 3, 0, 0)) = true ∧
    holds (step (running .storedHdr 3 [0x01, 0x05, 0x00, 0x00, 0x00] 5)) (fun t => errorRow t = (0x11, 3, 5, 3, 0)) = true ∧
    holds (step (running .dynCounts 3 [0xF5, 0x00, 0x00] 0)) (fun t => errorRow t = (0x12, 3, 0x105, 3, 0)) = true ∧
    holds (step (running .dynCounts 3 [0x05, 0x1E, 0x00] 0)) (fun t => errorRow t = (0x12, 3, 0x205, 3, 0)) = true := by
  decide +kernel

/-- Errors of data elements (95 V-L2-E12 to E16). -/
theorem test_data_errors :
    holds (step (inFixed 3 [0x1B, 0x03] 1 [])) (fun t => statusWord t = 0x0BD ∧ errorRow t = (0x15, 3, 0x11E, 3, 0)) = true ∧
    holds (step (inFixed 11 [0x4B, 0x04, 0x3E] 10 [0x61])) (fun t => errorRow t = (0x16, 11, 0x1E, 11, 1)) = true ∧
    holds (step (inFixed 3 [0x03, 0x02, 0x00] 3 [])) (fun t => errorRow t = (0x17, 3, 1, 3, 0)) = true ∧
    holds (step (inFixed 11 [0x4B, 0x4C, 0x02, 0x00] 1 [0x61])) (fun t => errorRow t = (0x18, 11, 1, 11, 1)) = true ∧
    holds (step (inFixed 19 [0x4B, 0x4C, 0x02, 0x00] 3 [0x61, 0x62])) (fun t => errorRow t = (0x19, 26, 2, 19, 2)) = true := by
  decide +kernel

/-- An underrun waits while input is missing (95 V-L2-X1) and is fatal once the slice is complete (95 V-L2-E17). -/
theorem test_underrun :
    holds (step { inFixed 3 [0x4B] 2 [] with csize := 4 })
      (fun t => statusWord t = 0x0B3 ∧ errorRow t = (0x03, 8, 1, 3, 0) ∧ t.evlog = [.waiting 8 1]) = true ∧
    holds (step (inFixed 11 [0x4B, 0x04] 1 [0x61])) (fun t => statusWord t = 0x0BD ∧ errorRow t = (0x1A, 16, 1, 11, 1)) = true := by
  decide +kernel

/-- Code-length symbols (95 V-L2-H10 to H14). -/
theorem test_repeat_previous :
    holds (exec (.clRepeatPrev 3) (inLengths 257 1 [0, 0, 0, 8]))
      (fun t => t.lidx = 10 ∧ t.lens.take 11 = [0, 0, 0, 8, 8, 8, 8, 8, 8, 8, 0]) = true ∧
    holds (exec (.clRepeatPrev 0) (inLengths 257 1 [])) (fun t => t.errcode = 0x12 ∧ t.erraux = 0x102) = true := by
  decide +kernel

theorem test_repeat_zero :
    holds (exec (.clRepeatZeroShort 0) (inLengths 257 1 [1])) (fun t => t.lidx = 4) = true ∧
    holds (exec (.clRepeatZeroLong 127) (inLengths 257 1 [1])) (fun t => t.lidx = 139) = true ∧
    holds (exec (.clRepeatZeroLong 127) (inLengths 257 1 (List.replicate 138 0)))
      (fun t => t.errcode = 0x12 ∧ t.erraux = 0x103) = true := by
  decide +kernel

/-- The last code length of P3 builds T_LIT and T_DIST: 97 = 00, 98 = 01, 256 = 10, 257 = 11 and distance 0 = 0. -/
theorem test_last_length_builds :
    holds (exec (.clLen 1) (inLengths 258 1
        (List.replicate 97 0 ++ [2, 2] ++ List.replicate 157 0 ++ [2, 2])))
      (fun t => t.dstate = .huffData ∧ [97, 98, 256, 257].map (codeOf t.tLit) = [0, 1, 2, 3] ∧
        t.tDist.lenAt 0 = 1 ∧ codeOf t.tDist 0 = 0) = true := by
  decide +kernel

/-- The code-length-code lengths of P3: 18 = 0, 1 = 10, 2 = 11. -/
theorem test_cllen_builds :
    holds (exec (.dynCllen [0, 0, 1, 0, 0, 0, 0, 0, 0, 0, 0, 0, 0, 0, 0, 2, 0, 2])
        { running .dynCllen 17 [] 5 with hclen := 18 })
      (fun t => t.dstate = .dynLens ∧ t.lidx = 0 ∧ [18, 1, 2].map (codeOf t.tCl) = [0, 2, 3]) = true := by
  decide +kernel

/-- Stored bytes: P2 step 4 ends the block; the last method-0 byte finishes the entry (95 P2, V-L1-2). -/
theorem test_stored_byte :
    holds (step { running .storedData 48 [0x00, 0x02, 0x00, 0xFD, 0xFF, 0x48, 0x69] 6 with
        storedRem := 1, outPtr := 1, progFile := 1 })
      (fun t => t.pos = 56 ∧ t.outPtr = 2 ∧ t.dstate = .blkHdr ∧ outByte t 1 = 0x69) = true := by
  decide +kernel

theorem test_raw_byte :
    holds (step { running .raw 88 (List.replicate 11 0 ++ [0x64]) 12 with outPtr := 11, progFile := 11 })
      (fun t => statusWord t = 0x084 ∧ t.pos = 96 ∧ t.outPtr = 12 ∧ t.filesDone = 1 ∧ t.evlog = [.extract 0 12]) = true := by
  decide +kernel

/-- An incomplete table raises on its unused code, an empty one without reading (95 V-L2-H4 to H7). -/
theorem test_incomplete_tables :
    huffBuild 0 [1, 1, 1] 7 0 = .error (.error .invalidCodeLengths 0 0x001) ∧
    huffDecode (tableOf [1, 0, 0] 7) (streamOfBytes [0x01]) 0 = .error (.error .corruptHuffmanTable 0 1) ∧
    huffDecode (tableOf [0, 0, 0] 7) (streamOfBytes []) 0 = .error (.error .corruptHuffmanTable 0 0) ∧
    huffDecode (tableOf [2, 1, 3, 3] 7) (streamOfBytes [0x03]) 0 = .ok (2, 3) := by
  decide +kernel

/-- The cursor in both bit orders (95 V-L2-B5, B8, B9, B11, B12). -/
theorem test_cursor :
    readBits (streamOfBytes [0x05]) 3 6 = .error (.underrun 3 6) ∧
    readBytes (streamOfBytes [0xAA, 0x41, 0x42]) 2 5 = .ok ([0x41, 0x42], 24) ∧
    readBytes (streamOfBytes [0xAA, 0x41]) 2 5 = .error (.underrun 16 8) ∧
    readBits { streamOfBytes [0x8D, 0x03] with order := .msb } 5 3 = .ok (13, 8) ∧
    readBits (streamOfBytes [0x8D, 0x03]) 5 3 = .ok (17, 8) := by
  decide +kernel

/-! ## Witnesses: for each statement with hypotheses, values that meet them, one per clause -/

theorem witness_CommandWordSelectsByLowByte :
    (0x12345600#32).toNat % 256 = 0 ∧ (0xFFFFFF01#32).toNat % 256 = 1 ∧ (0x00000002#32).toNat % 256 = 2 ∧
    (0x00000103#32).toNat % 256 = 3 ∧ (0x00000004#32).toNat % 256 = 4 ∧ 5 ≤ (0x00000005#32).toNat % 256 ∧
    5 ≤ (0xFFFFFFFF#32).toNat % 256 := by decide

theorem witness_CommandsRoundTrip :
    (Instr.illegalOpcode 5).wf = true ∧ (Instr.illegalOpcode 5).isCommand = true ∧
    (Instr.illegalOpcode 255).wf = true ∧ (Instr.illegalOpcode 255).isCommand = true ∧
    Instr.nop.wf = true ∧ Instr.nop.isCommand = true := by decide

/-- A context with the fixed tables and `sampleCl`. -/
def sampleCtx (d : DState) (m : Bool) : DecodeCtx :=
  { dstate := d, inMatch := m, hclen := 4, lidx := 1, outFull := false, tCl := sampleCl, tLit := tFixLit,
    tDist := tFixDist }

theorem witness_FixedFieldElementsRoundTrip :
    ∃ bs, (Instr.storedHdr 5 0xFFFA).wf = true ∧ (Instr.storedHdr 5 0xFFFA).fits (sampleCtx .storedHdr false) ∧
      encode (sampleCtx .storedHdr false) 3 (.storedHdr 5 0xFFFA) = .bits bs ∧
      Carries (streamOfBytes [0x01, 0x05, 0x00, 0xFA, 0xFF]) 3 bs :=
  ⟨_, rfl, rfl, rfl, rfl, by decide +kernel, by decide +kernel⟩

theorem witness_FixedFieldElementsRoundTrip_lengths :
    ∃ bs, (Instr.dynCllen [1, 2, 3, 7]).wf = true ∧ (Instr.dynCllen [1, 2, 3, 7]).fits (sampleCtx .dynCllen false) ∧
      encode (sampleCtx .dynCllen false) 0 (.dynCllen [1, 2, 3, 7]) = .bits bs ∧
      Carries (streamOfBytes [0xD1, 0x0E]) 0 bs :=
  ⟨_, rfl, ⟨rfl, rfl⟩, rfl, rfl, by decide +kernel, by decide +kernel⟩

/-- Padding bits that are not 0, and none at all, before a stored header and a byte (43 R244). -/
theorem witness_FixedFieldElementsRoundTrip_skipped :
    (3 ≤ 8 ∧ 8 < 3 + 8 ∧ 8 % 8 = 0 ∧ (sampleCtx .storedHdr false).dstate = .storedHdr ∧
      Carries (streamOfBytes [0xF9, 0x05, 0x00, 0xFA, 0xFF]) 8 (fieldBits 16 (5 : BitVec 16).toNat ++ fieldBits 16 (0xFFFA : BitVec 16).toNat)) ∧
    (1 ≤ 8 ∧ 8 < 1 + 8 ∧ (sampleCtx .storedData false).dstate = .storedData ∧
      Carries (streamOfBytes [0xFF, 0xA5]) 8 (fieldBits 8 (0xA5 : Byte).toNat)) ∧
    (0 ≤ 0 ∧ 0 < 0 + 8 ∧ 0 % 8 = 0 ∧ (sampleCtx .raw false).dstate = .raw ∧ (sampleCtx .raw false).outFull = false ∧
      Carries (streamOfBytes [0xA5]) 0 (fieldBits 8 (0xA5 : Byte).toNat)) := by
  refine ⟨⟨by decide, by decide, by decide, rfl, rfl, ?_⟩, ⟨by decide, by decide, rfl, rfl, ?_⟩,
    ⟨by decide, by decide, by decide, rfl, rfl, rfl, ?_⟩⟩ <;> constructor <;> decide +kernel

theorem witness_FixedFieldElementsRoundTrip_agree :
    (streamOfBytes [0xF9, 0x05]).order = .lsb ∧ (streamOfBytes [0x01, 0x05]).order = .lsb ∧
    (streamOfBytes [0xF9, 0x05]).recv = (streamOfBytes [0x01, 0x05]).recv ∧
    (∀ k, 8 ≤ k → bitAt (streamOfBytes [0xF9, 0x05]) k = bitAt (streamOfBytes [0x01, 0x05]) k) := by
  refine ⟨rfl, rfl, rfl, fun k hk => ?_⟩
  obtain ⟨m, hm⟩ : ∃ m, k / 8 = m + 1 := ⟨k / 8 - 1, by omega⟩
  simp [bitAt, streamOfBytes, hm]

theorem sampleCl_built : BuiltFrom sampleCl 19 7 := ⟨_, rfl, by decide, by decide, rfl⟩

theorem fixed_built : BuiltFrom tFixLit 288 15 ∧ BuiltFrom tFixDist 32 15 :=
  ⟨⟨fixedLitLengths, by decide +kernel, by decide +kernel, by decide +kernel, rfl⟩,
    ⟨fixedDistLengths, by decide +kernel, by decide +kernel, by decide +kernel, rfl⟩⟩

theorem witness_HuffmanElementsRoundTrip_match :
    ∃ bs, (Instr.matchL285 29 8191).wf = true ∧ (Instr.matchL285 29 8191).fits (sampleCtx .huffData false) ∧
      BuiltFrom tFixLit 288 15 ∧ BuiltFrom tFixDist 32 15 ∧
      encode (sampleCtx .huffData false) 0 (.matchL285 29 8191) = .bits bs ∧
      Carries (streamOfBytes [0xA3, 0xF7, 0xFF, 0x03]) 0 bs :=
  ⟨_, by decide, ⟨rfl, rfl, by decide +kernel, by decide +kernel⟩, fixed_built.1, fixed_built.2, rfl, rfl,
    by decide +kernel, by decide +kernel⟩

theorem witness_HuffmanElementsRoundTrip_repeat :
    ∃ bs, (Instr.clRepeatPrev 2).wf = true ∧ (Instr.clRepeatPrev 2).fits (sampleCtx .dynLens false) ∧
      BuiltFrom sampleCl 19 7 ∧ encode (sampleCtx .dynLens false) 0 (.clRepeatPrev 2) = .bits bs ∧
      Carries (streamOfBytes [0x15]) 0 bs :=
  ⟨_, rfl, ⟨rfl, by decide +kernel, by decide⟩, sampleCl_built, rfl, rfl, by decide +kernel, by decide +kernel⟩

theorem witness_HuffmanElementsRoundTrip_distance :
    ∃ bs, Instr.distInvalid31.wf = true ∧ Instr.distInvalid31.fits (sampleCtx .huffData true) ∧
      encode (sampleCtx .huffData true) 0 .distInvalid31 = .bits bs ∧ Carries (streamOfBytes [0x1F]) 0 bs :=
  ⟨_, rfl, ⟨rfl, rfl, by decide +kernel⟩, rfl, rfl, by decide +kernel, by decide +kernel⟩

theorem witness_HuffDecodeInvertsCode :
    (∀ l, l ∈ [2, 1, 3, 3] → l ≤ 3) ∧ overSubscribed [2, 1, 3, 3] 3 = false ∧ [2, 1, 3, 3].getD 3 0 ≠ 0 ∧
      Delivers (streamOfBytes [0x07]) 0 (symbolBits (tableOf [2, 1, 3, 3] 3) 3) ∧
      (∀ l, l ∈ [2, 1, 3, 3] → l ≤ 3) ∧ 3 ∈ [2, 1, 3, 3] :=
  ⟨by decide, by decide, by decide, ⟨by decide +kernel, by decide +kernel⟩, by decide, by decide⟩

/-- A bit that the table with the one code 0 does not use; two bits 11 of a longer code at the end of the input; and a
table without codes. -/
theorem witness_HuffDecodeInvertsCode_raises :
    (overSubscribed [1, 0, 0] 7 = false ∧ 1 ∈ [1, 0, 0] ∧ 0 + 1 ≤ (streamOfBytes [0x01]).avail ∧
      (∀ s, s < 3 → [1, 0, 0].getD s 0 ≠ 0 → ¬ Delivers (streamOfBytes [0x01]) 0 (symbolBits (tableOf [1, 0, 0] 7) s))) ∧
    (6 ≤ (streamOfBytes [0xC0]).avail ∧ (streamOfBytes [0xC0]).avail < 6 + 3 ∧
      (∀ s, s < 4 → [2, 1, 3, 3].getD s 0 ≠ 0 → ¬ Delivers (streamOfBytes [0xC0]) 6 (symbolBits (tableOf [2, 1, 3, 3] 7) s))) ∧
    (overSubscribed [0, 0, 0] 7 = false ∧ ∀ l, l ∈ [0, 0, 0] → l ≤ 0) := by
  refine ⟨⟨by decide, by decide, by decide, ?_⟩, ⟨by decide, by decide, ?_⟩, by decide, by decide⟩ <;>
    unfold Delivers <;> decide +kernel

theorem witness_OverSubscriptionIsRaisedAtBuild :
    (1 ≤ 1 ∧ 1 ≤ 7 ∧ 2 ^ 1 < ((List.range 1).map (fun j => [1, 1, 1].count (j + 1) * 2 ^ (1 - (j + 1)))).sum) ∧
    (∀ L, L < 8 → 1 ≤ L → ((List.range L).map (fun j => [1, 1].count (j + 1) * 2 ^ (L - (j + 1)))).sum ≤ 2 ^ L) := by
  decide

theorem witness_CodesOfALengthAreConsecutive :
    (∀ l, l ∈ [2, 1, 3, 3] → l ≤ 3) ∧ overSubscribed [2, 1, 3, 3] 3 = false ∧ [2, 1, 3, 3].getD 3 0 ≠ 0 ∧
    1 = ((List.range 3).filter (fun k => [2, 1, 3, 3].getD k 0 == [2, 1, 3, 3].getD 3 0)).length := by decide

theorem witness_ReadsSplitAndAreLittleEndian :
    7 + 9 ≤ 16 ∧ 0 + 7 + 9 ≤ (streamOfBytes [0x34, 0x12]).avail ∧ 8 % 8 = 0 ∧
    8 + 8 ≤ (streamOfBytes [0x34, 0x12]).avail ∧ 0 + 16 ≤ (streamOfBytes [0x34, 0x12]).avail ∧
    (streamOfBytes [0x34, 0x12]).order = .lsb ∧
    0 + 7 + 9 ≤ (Stream.avail { streamOfBytes [0x34, 0x12] with order := .msb }) := by decide

theorem witness_StepRunsTheDecodedElement :
    (running .blkHdr 0 [0x03] 0).state = .run ∧ nextTurn (running .blkHdr 0 [0x03] 0) = .engine ∧
    fetchElement (running .blkHdr 0 [0x03] 0) = .ok (.blockFixed true, 3) := by decide +kernel

theorem witness_StepRunsTheCommandWord :
    { State.reset with sched := [.regWrite 0 4 5, .engine] }.sched = .regWrite 0 4 5 :: [.engine] := rfl

theorem witness_EngineIsIdleOutsideRun :
    State.reset.state ≠ .run ∧ nextTurn State.reset = .engine ∧
    { State.reset with state := .done, sched := [.engine, .engine] }.state ≠ .run ∧
    nextTurn { State.reset with state := .done, sched := [.engine, .engine] } = .engine := by decide

/-- A data element on a code that the incomplete table [1, 0, 0] does not use. -/
def unusedCode : State := { running .huffData 0 [0x01] 0 with tLit := tableOf [1, 0, 0] 15 }

theorem witness_DecodingErrorIsTaken :
    unusedCode.state = .run ∧ nextTurn unusedCode = .engine ∧
    fetchElement unusedCode = .error (.error .corruptHuffmanTable 0 1) := by decide +kernel

/-- The unused code read from T_LIT, from T_CL, and from T_DIST after the fixed code of symbol 264, at position 7. -/
theorem witness_DecodingErrorIsTaken_where :
    (unusedCode.dstate = .huffData ∧ unusedCode.mlen = 0 ∧
      huffDecode unusedCode.tLit (streamOf unusedCode) unusedCode.pos.toNat = .error (.error .corruptHuffmanTable 0 1)) ∧
    (huffDecode (tableOf [1, 0, 0] 7) (streamOf unusedCode) { unusedCode with dstate := .dynLens }.pos.toNat =
      .error (.error .corruptHuffmanTable 0 1)) ∧
    huffDecode tFixLit (streamOf (inFixed 0 [0x88] 0 [])) 0 = .ok (264, 7) ∧
    7 + lengthExtra 264 ≤ 8 * (inFixed 0 [0x88] 0 []).inRecv.toNat ∧
    huffDecode (tableOf [1, 0, 0] 15) (streamOf (inFixed 0 [0x88] 0 [])) (7 + lengthExtra 264) =
      .error (.error .corruptHuffmanTable 7 1) := by decide +kernel

/-- The last read that fits and the first that does not, from the ends of the input and inside a byte. -/
theorem witness_UnderrunWaitsOrTruncates_reads :
    (16 ≤ (streamOfBytes [1, 2]).avail ∧ (streamOfBytes [1, 2]).avail < 16 + 1 ∧ 16 + 0 ≤ (streamOfBytes [1, 2]).avail ∧
      0 + 16 ≤ (streamOfBytes [1, 2]).avail) ∧
    (9 ≤ (streamOfBytes [1, 2]).avail ∧ 9 ≤ 16 ∧ 16 < 9 + 8 ∧ 16 % 8 = 0 ∧ (streamOfBytes [1, 2]).order = .lsb ∧
      (streamOfBytes [1, 2]).avail < 16 + 8 * 1 ∧ 16 + 8 * 0 ≤ (streamOfBytes [1, 2]).avail ∧
      8 + 8 * 1 ≤ (streamOfBytes [1, 2]).avail) ∧
    (Stream.avail { streamOfBytes [1, 2] with order := .msb, rarAlign := .shifted } < 9 + 8 * 1 ∧
      8 + 8 * 1 ≤ Stream.avail { streamOfBytes [1, 2] with order := .msb, rarAlign := .shifted } ∧
      7 + 8 * 1 ≤ Stream.avail { streamOfBytes [1, 2] with order := .msb, rarAlign := .shifted }) := by decide

theorem witness_UnderrunWaitsOrTruncates :
    (running .blkHdr 0 [] 0).state = .run ∧ nextTurn (running .blkHdr 0 [] 0) = .engine ∧
    fetchElement (running .blkHdr 0 [] 0) = .error (.underrun 1 0) ∧
    (running .blkHdr 0 [] 0).csize.toNat ≤ (running .blkHdr 0 [] 0).inRecv.toNat ∧
    fetchElement { running .blkHdr 0 [] 0 with csize := 1 } = .error (.underrun 1 0) ∧
    { running .blkHdr 0 [] 0 with csize := 1 }.inRecv.toNat < { running .blkHdr 0 [] 0 with csize := 1 }.csize.toNat := by
  decide +kernel

theorem witness_EveryErrorIsPrecise :
    holds (exec (.blockReserved true) (running .blkHdr 0 [0x07] 0))
      (fun t => t.evlog = [] ++ [.error 0x10 0 3] ∧ t.state = .error) = true ∧
    holds (step (running .blkHdr 0 [0x07] 0)) (fun t => t.evlog = [] ++ [.error 0x10 0 3] ∧ t.state = .error) = true ∧
    holds (step { running .blkHdr 0 [] 0 with csize := 1 })
      (fun t => t.evlog = [] ++ [.waiting 0 1] ∧ t.state = .waiting) = true := by
  decide +kernel

theorem witness_OpenAndCloseClearTheSession :
    (Instr.openSession = .openSession ∧ EState.idle = .idle) ∧ (Instr.closeSession = .closeSession ∧ EState.closed = .closed) := by
  decide

/-- The smallest capacities, so that the largest and the first too large sizes are at hand. -/
def tight (st : EState) (a0 a1 a2 : Word) : State :=
  { State.reset with
    cfg := { inCap := 1, outCap := 0, histRetain := none, rarAlign := .skip }, state := st, arg0 := a0, arg1 := a1
    arg2 := a2 }

theorem witness_StartEntryBeginsDecoding :
    (∀ st, st = EState.idle ∨ st = .done ∨ st = .error → (tight st 0x108 0 0).state = st) ∧
    (0x08 : BitVec 8) = BitVec.ofNat 8 (tight .idle 0x108 0 0).arg0.toNat ∧ true = (tight .idle 0x108 0 0).arg0.getLsbD 8 ∧
    (tight .idle 0x108 0 0).arg1.toNat < (tight .idle 0x108 0 0).cfg.inCap ∧
    (tight .idle 0x108 0 0).arg2.toNat ≤ (tight .idle 0x108 0 0).cfg.outCap ∧
    ¬ (true = true ∧ (tight .idle 0x108 0 0).taint = true) ∧
    (0 : BitVec 8) = BitVec.ofNat 8 (tight .error 0 0 0).arg0.toNat ∧ (tight .error 0 0 0).arg1 = (tight .error 0 0 0).arg2 :=
  ⟨fun _ _ => rfl, by decide, by decide, by decide, by decide, by decide, by decide, by decide⟩

theorem witness_StartEntryChecksInOrder :
    (tight .run 8 0 0).state = .run ∧
    (tight .idle 8 1 0).cfg.inCap ≤ (tight .idle 8 1 0).arg1.toNat ∧
    (tight .done 8 0 1).cfg.outCap < (tight .done 8 0 1).arg2.toNat ∧
    ((tight .idle 1 0 0).arg1.toNat < (tight .idle 1 0 0).cfg.inCap ∧
      (tight .idle 1 0 0).arg2.toNat ≤ (tight .idle 1 0 0).cfg.outCap ∧
      BitVec.ofNat 8 (tight .idle 1 0 0).arg0.toNat ≠ 0 ∧ BitVec.ofNat 8 (tight .idle 1 0 0).arg0.toNat ≠ 8) ∧
    ((tight .error 0x108 0 0).arg0.getLsbD 8 = true ∧ { tight .error 0x108 0 0 with taint := true }.taint = true) ∧
    (BitVec.ofNat 8 { tight .idle 0 1 0 with cfg := Config.widest }.arg0.toNat = 0 ∧
      { tight .idle 0 1 0 with cfg := Config.widest }.arg0.getLsbD 8 = false ∧
      { tight .idle 0 1 0 with cfg := Config.widest }.arg1 ≠ { tight .idle 0 1 0 with cfg := Config.widest }.arg2 ∧
      { tight .idle 0 1 0 with cfg := Config.widest }.arg1.toNat < Config.widest.inCap) := by decide

/-- A state in `st` with 3 of 5 bytes delivered and ARG0 = `k`. -/
def partly (st : EState) (k : Word) : State := { State.reset with state := st, inRecv := 3, csize := 5, arg0 := k }

theorem witness_AppendInputDeliversOrResumes :
    (partly .run 2).inRecv.toNat + (partly .run 2).arg0.toNat ≤ (partly .run 2).csize.toNat ∧
    (partly .run 2).state = .run ∧ (partly .done 0).state = .done ∧ (partly .waiting 2).state = .waiting ∧
    (partly .waiting 2).inRecv.toNat + (partly .waiting 2).arg0.toNat ≤ (partly .waiting 2).csize.toNat := by decide

theorem witness_AppendInputOutOfPlaceRaises :
    (partly .idle 0).state = .idle ∧ (partly .waiting 3).state = .waiting ∧
    (partly .waiting 3).csize.toNat < (partly .waiting 3).inRecv.toNat + (partly .waiting 3).arg0.toNat ∧
    (partly .done 0xFFFFFFFF).csize.toNat < (partly .done 0xFFFFFFFF).inRecv.toNat + (partly .done 0xFFFFFFFF).arg0.toNat := by
  decide

theorem witness_IllegalOpcodeRaises : 5 ≤ (0x05 : BitVec 8).toNat ∧ 5 ≤ (0xFF : BitVec 8).toNat := by decide

/-- A running state with OUT_PTR, USIZE, STORED_REM and BFINAL as given. -/
def copying (d : DState) (o u : Nat) (r : BitVec 16) (f : Bool) : State :=
  { running d 40 [] u with outPtr := BitVec.ofNat 32 o, storedRem := r, bfinal := f }

theorem witness_StoredHeaderSelectsItsBytes :
    (0xFFFF : BitVec 16) ≠ 0 ∧ (copying .storedHdr 4 5 0 false).bfinal = false ∧
    (copying .storedHdr 5 5 0 true).bfinal = true ∧
    (copying .storedHdr 5 5 0 true).outPtr = (copying .storedHdr 5 5 0 true).usize := by decide

theorem witness_StoredHeaderMismatchRaises :
    (0 : BitVec 16) ≠ 5 ^^^ 0xFFFF ∧ (0xFFFF : BitVec 16) = 0 ^^^ 0xFFFF ∧ (copying .storedHdr 4 5 0 true).bfinal = true ∧
    (copying .storedHdr 4 5 0 true).outPtr ≠ (copying .storedHdr 4 5 0 true).usize := by decide

theorem witness_StoredByteIsCopiedOrRaises :
    (copying .storedData 5 5 1 true).usize.toNat ≤ (copying .storedData 5 5 1 true).outPtr.toNat ∧
    ((copying .storedData 4 5 2 true).outPtr.toNat < (copying .storedData 4 5 2 true).usize.toNat ∧
      1 < (copying .storedData 4 5 2 true).storedRem.toNat) ∧
    ((copying .storedData 4 5 1 false).outPtr.toNat < (copying .storedData 4 5 1 false).usize.toNat ∧
      (copying .storedData 4 5 1 false).storedRem = 1 ∧ (copying .storedData 4 5 1 false).bfinal = false) ∧
    ((copying .storedData 4 5 1 true).storedRem = 1 ∧ (copying .storedData 4 5 1 true).bfinal = true ∧
      (copying .storedData 4 5 1 true).outPtr.toNat + 1 = (copying .storedData 4 5 1 true).usize.toNat) ∧
    (copying .storedData 3 5 1 true).outPtr.toNat + 1 < (copying .storedData 3 5 1 true).usize.toNat := by decide

theorem witness_RawByteIsCopied :
    (copying .raw 3 5 0 false).outPtr.toNat + 1 < (copying .raw 3 5 0 false).usize.toNat ∧
    (copying .raw 4 5 0 false).outPtr.toNat + 1 = (copying .raw 4 5 0 false).usize.toNat ∧
    (copying .raw 0 0 0 false).outPtr = (copying .raw 0 0 0 false).usize := by decide

theorem witness_DynamicCountsAreLoadedOrRaise :
    (29 : BitVec 5).toNat + 257 ≤ 286 ∧ 286 < (30 : BitVec 5).toNat + 257 ∧ 30 < (30 : BitVec 5).toNat + 1 := by decide

theorem witness_CodeLengthCodeIsBuiltInOrder :
    (List.replicate 19 (0 : BitVec 3)).length ≤ 19 ∧ overSubscribed (clLengths [1, 1]) 7 = false ∧
    overSubscribed (clLengths [1, 1, 1]) 7 = true := by decide +kernel

theorem witness_CodeLengthSymbolsFillLens :
    lengthRun (inLengths 257 1 [7]) (.clRepeatPrev 3) = some (7, 6) ∧
    lengthRun (inLengths 257 1 [7]) (.clLen 15) = some (15, 1) ∧
    lengthRun (inLengths 257 1 [7]) (.clRepeatZeroShort 7) = some (0, 10) ∧
    lengthRun (inLengths 257 1 [7]) (.clRepeatZeroLong 127) = some (0, 138) ∧
    (inLengths 257 1 [7]).lidx.toNat + 138 < (inLengths 257 1 [7]).hlit.toNat + (inLengths 257 1 [7]).hdist.toNat ∧
    (inLengths 286 30 [7]).hlit.toNat + (inLengths 286 30 [7]).hdist.toNat ≤ 316 ∧ (inLengths 286 30 [7]).lens.length = 316 := by
  decide +kernel

theorem witness_CodeLengthSymbolErrors :
    (inLengths 257 1 []).lidx = 0 ∧
    lengthRun (inLengths 257 1 (List.replicate 256 0)) (.clRepeatZeroShort 0) = some (0, 3) ∧
    (inLengths 257 1 (List.replicate 256 0)).hlit.toNat + (inLengths 257 1 (List.replicate 256 0)).hdist.toNat <
      (inLengths 257 1 (List.replicate 256 0)).lidx.toNat + 3 := by decide +kernel

/-- One code length is missing: `e` codes EOB, `a` and `b` code symbols 0, 1 and 2, `d` is the first of two distance
lengths. -/
def almost (a b e d : BitVec 4) : State := inLengths 257 3 ([a, b, b] ++ List.replicate 253 0 ++ [e, d, d])

theorem witness_LastCodeLengthBuildsTheTables :
    (∀ s, s = almost 0 0 0 0 ∨ s = almost 1 1 1 0 ∨ s = almost 0 0 1 1 ∨ s = almost 1 0 1 1 →
      s.lidx.toNat + 1 = s.hlit.toNat + s.hdist.toNat) ∧
    (litLengths (writeRun 0 1 (almost 0 0 0 0))).getD 256 0 = 0 ∧
    ((litLengths (writeRun 0 1 (almost 1 1 1 0))).getD 256 0 ≠ 0 ∧
      overSubscribed (litLengths (writeRun 0 1 (almost 1 1 1 0))) 15 = true) ∧
    ((litLengths (writeRun 1 1 (almost 0 0 1 1))).getD 256 0 ≠ 0 ∧
      overSubscribed (litLengths (writeRun 1 1 (almost 0 0 1 1))) 15 = false ∧
      overSubscribed (distLengths (writeRun 1 1 (almost 0 0 1 1))) 15 = true) ∧
    ((litLengths (writeRun 0 1 (almost 1 0 1 1))).getD 256 0 ≠ 0 ∧
      overSubscribed (litLengths (writeRun 0 1 (almost 1 0 1 1))) 15 = false ∧
      overSubscribed (distLengths (writeRun 0 1 (almost 1 0 1 1))) 15 = false) ∧
    lengthRun (almost 1 0 1 1) (.clLen 15) = some (15, 1) ∧
    ((inLengths 286 30 (List.replicate 306 1)).lidx.toNat + 10 = 316 ∧
      (inLengths 286 30 (List.replicate 306 1)).hlit.toNat + (inLengths 286 30 (List.replicate 306 1)).hdist.toNat = 316 ∧
      (inLengths 286 30 (List.replicate 306 1)).lens.length = 316) := by
  refine ⟨?_, by decide +kernel, by decide +kernel, by decide +kernel, by decide +kernel, by decide +kernel, by decide +kernel⟩
  rintro s (rfl | rfl | rfl | rfl) <;> decide +kernel

theorem witness_LiteralIsAppendedOrOverruns :
    (copying .huffData 4 5 0 true).outPtr.toNat < (copying .huffData 4 5 0 true).usize.toNat ∧
    (copying .huffData 5 5 0 true).usize.toNat ≤ (copying .huffData 5 5 0 true).outPtr.toNat := by decide

theorem witness_EndOfBlockChainsOrFinishes :
    (copying .huffData 5 5 0 false).bfinal = false ∧ (copying .huffData 5 5 0 true).bfinal = true ∧
    (copying .huffData 5 5 0 true).outPtr = (copying .huffData 5 5 0 true).usize ∧
    (copying .huffData 4 5 0 true).outPtr ≠ (copying .huffData 4 5 0 true).usize := by decide

/-- A solid entry of 12 bytes with `o` written, after a history of 5. -/
def solidAt (o : Nat) : State := { copying .huffData o 12 0 true with solid := true, hist := [[1, 2, 3], [4, 5]], mlen := 3 }

theorem witness_MatchCopiesByteSerially :
    (Instr.matchL257 6 1).matchFields = some (257, 0, 6, 1) ∧ 3 = lengthBase 257 + 0 ∧ 10 = distanceBase 6 + 1 ∧
    10 ≤ visibleHistory (solidAt 9) + (solidAt 9).outPtr.toNat ∧ (solidAt 9).outPtr.toNat + 3 ≤ (solidAt 9).usize.toNat ∧
    (Instr.matchL285 0 0).matchFields = some (285, 0, 0, 0) ∧ 1 = distanceBase 0 + 0 := by decide

theorem witness_MatchRaisesInOrder :
    (Instr.matchL257 31 0).matchFields = some (257, 0, 31, 0) ∧ Instr.distInvalid30.distanceFields = some (30, 0) ∧
    (Instr.matchL257 4 0).matchFields = some (257, 0, 4, 0) ∧ 5 = distanceBase 4 + 0 ∧
    visibleHistory (copying .huffData 4 12 0 true) + (copying .huffData 4 12 0 true).outPtr.toNat < 5 ∧
    5 ≤ visibleHistory (solidAt 10) + (solidAt 10).outPtr.toNat ∧ (solidAt 10).usize.toNat < (solidAt 10).outPtr.toNat + 3 ∧
    (Instr.dist4 0).distanceFields = some (4, 0) ∧ 3 = (solidAt 10).mlen.toNat := by decide

theorem witness_DistanceFieldCompletesTheMatch :
    (Instr.dist6 1).distanceFields = some (6, 1) ∧ 3 = (solidAt 9).mlen.toNat ∧ 10 = distanceBase 6 + 1 ∧
    10 ≤ visibleHistory (solidAt 9) + (solidAt 9).outPtr.toNat ∧ (solidAt 9).outPtr.toNat + 3 ≤ (solidAt 9).usize.toNat := by
  decide

theorem witness_InvalidSymbolsRaise :
    (Instr.matchL285 30 0).matchFields = some (285, 0, 30, 0) ∧ (Instr.matchL257 31 0).matchFields = some (257, 0, 31, 0) := by
  decide

/-- A history of three members. -/
def threeMembers : List (List Byte) := [[1], [2, 3], [4]]

theorem witness_RetainKeepsTheNewestBytes :
    threeMembers ≠ [] ∧ 0 < threeMembers.length - (retain (some 3) threeMembers).length := by decide

/-- The turn in which the host writes `w` to CMD. -/
def cmd (w : Word) : Turn := .regWrite 0 4 w

theorem issues_cmd (w : Word) : (cmd w).issues = some w := rfl

theorem witness_HistoryLivesForOneSession :
    (∃ t, step { solidAt 12 with sched := [cmd 1] } = .next t) ∧
    (nextTurn { solidAt 12 with sched := [cmd 1] }).startsAnew ∧
    (∃ t, step { solidAt 12 with sched := [cmd 0] } = .next t) ∧
    ¬ (nextTurn { solidAt 12 with sched := [cmd 0] }).startsAnew := by
  refine ⟨⟨_, rfl⟩, .inr ⟨1, rfl, .inl (by decide)⟩, ⟨_, rfl⟩, ?_⟩
  rintro (h | ⟨w, h, h2⟩)
  · cases h
  · cases h
    revert h2
    decide

theorem witness_NonSolidEntryIgnoresTheHistory :
    { solidAt 9 with solid := false }.solid = false ∧ ∃ t, exec .eob { solidAt 9 with solid := false } = .next t :=
  ⟨rfl, _, rfl⟩

theorem witness_HostWritesToIn :
    { partly .run 0 with sched := [.inWrite 3 7] }.sched = [.inWrite 3 7] ∧
    3 < (partly .run 0).cfg.inCap ∧ (partly .run 0).state = .run ∧ (partly .run 0).inRecv.toNat ≤ 3 ∧
    4 < (partly .waiting 0).csize.toNat ∧ 2 < (partly .run 0).inRecv.toNat ∧ (partly .done 0).csize.toNat ≤ 5 ∧
    (partly .error 0).state = .error := by decide

theorem witness_HostReadsAndWritesOfOut :
    { tight .done 0 0 0 with sched := [.outRead 0] }.sched = [.outRead 0] ∧ (tight .done 0 0 0).cfg.outCap ≤ 0 ∧
    (4 < (copying .none 5 5 0 true).cfg.outCap ∧ { copying .none 5 5 0 true with state := .done }.state = .done ∧
      4 < (copying .none 5 5 0 true).usize.toNat) ∧
    (copying .none 5 5 0 true).state ≠ .done ∧ (copying .none 5 5 0 true).usize.toNat ≤ 5 ∧
    { tight .done 0 0 0 with sched := [.outWrite 0 1] }.sched = [.outWrite 0 1] := by decide

theorem witness_RegisterReadsReturnTheMap :
    { State.reset with sched := [.regRead (4 * 63) 4] }.sched = .regRead (4 * 63) 4 :: [] ∧ 63 < 64 := by decide

theorem witness_RegisterWritesStoreArgumentsOnly :
    { State.reset with sched := [.regWrite (4 * 7) 4 9] }.sched = .regWrite (4 * 7) 4 9 :: [] ∧
    { State.reset with sched := [.regWrite (4 * 1) 4 9] }.sched = .regWrite (4 * 1) 4 9 :: [] ∧
    { State.reset with sched := [.regRead 256 4] }.sched = .regRead 256 4 :: [] ∧
    { State.reset with sched := [.regWrite 2 2 9] }.sched = .regWrite 2 2 9 :: [] := by decide

theorem witness_ResetHoldsTheStatedValues :
    nextTurn { solidAt 9 with sched := [.hardReset] } = .hardReset ∧
    ∃ t, step { solidAt 9 with sched := [.hardReset] } = .next t := ⟨rfl, _, rfl⟩

/-- A fresh entry at its first block header. -/
def fresh : State := running .blkHdr 0 [0x03, 0x00] 0

theorem fresh_inv : Inv fresh where
  config := by decide
  memory := by decide
  atomic := by decide
  bitOrder := rfl
  cursor := by decide
  sizes := by decide
  methods := by decide
  blockType := by decide
  errors := by decide
  selection := by decide
  tainted := by decide
  missing := by decide
  progress := by decide
  frozen := by decide
  lengths := List.length_replicate ..
  counts := by decide
  stored := by decide
  tables := by decide
  alphabets := by
    refine ⟨?_, ?_, ?_⟩ <;> intro v hv <;> rw [List.eq_of_mem_replicate hv] <;> decide

theorem witness_StepKeepsTheInvariantAndNeverStops : Inv fresh := fresh_inv

theorem witness_DeliveredInputIsImmutable :
    (∃ t, exec .eob fresh = .next t) ∧ nextTurn fresh = .engine ∧ (∃ t, step fresh = .next t) ∧ 0 < fresh.inRecv.toNat ∧
    nextTurn { partly .run 0 with sched := [.inWrite 2 7] } ≠ .hardReset ∧ 2 < (partly .run 0).inRecv.toNat :=
  ⟨⟨_, rfl⟩, rfl, ⟨_, rfl⟩, by decide, by decide, by decide⟩

theorem witness_TaintIsClearedOnlyAnew :
    (∃ t, step { partly .error 0 with taint := true, sched := [cmd 3] } = .next t) ∧
    { partly .error 0 with taint := true, sched := [cmd 3] }.taint = true ∧
    ¬ (nextTurn { partly .error 0 with taint := true, sched := [cmd 3] }).startsAnew ∧
    (nextTurn { partly .error 0 with taint := true, sched := [cmd 2] }).startsAnew ∧
    holds (step (running .blkHdr 0 [0x07] 0)) (fun t => t.taint) = true := by
  refine ⟨⟨_, rfl⟩, rfl, ?_, .inr ⟨2, rfl, .inr (by decide)⟩, by decide +kernel⟩
  rintro (h | ⟨w, h, h2⟩)
  · cases h
  · cases h
    revert h2
    decide

theorem witness_EventLogOnlyGrows :
    (∃ t, step fresh = .next t) ∧ nextTurn fresh ≠ .hardReset := ⟨⟨_, rfl⟩, by decide⟩

theorem witness_ProgressNeverDecreases :
    (∃ t, step fresh = .next t) ∧ ¬ (nextTurn fresh).startsAnew ∧ ¬ (nextTurn fresh).startsEntry := by
  refine ⟨⟨_, rfl⟩, ?_, ?_⟩
  · rintro (h | ⟨w, h, _⟩) <;> cases h
  · rintro ⟨w, h, _⟩
    cases h

theorem witness_EveryRunningStepConsumesInput :
    Inv fresh ∧ fresh.state = .run ∧ nextTurn fresh = .engine ∧ holds (step fresh) (fun t => t.state = .run) = true :=
  ⟨fresh_inv, rfl, rfl, by decide +kernel⟩

theorem witness_OneAttemptIsBounded : Inv fresh ∧ fresh.state = .run ∧ fresh.sched = [] := ⟨fresh_inv, rfl, rfl⟩

theorem witness_MoreInputKeepsEveryElement :
    { fresh with inRecv := 1 }.inRecv.toNat ≤ (2 : Word).toNat ∧
    fetchElement { fresh with inRecv := 1 } = .ok (.blockFixed true, 3) ∧ unusedCode.inRecv.toNat ≤ (1 : Word).toNat ∧
    fetchElement unusedCode = .error (.error .corruptHuffmanTable 0 1) := by decide +kernel

/-- `fresh` with another content where the spec gives none. -/
def freshOther : State := { fresh with out := [(5, 7)], lens := List.replicate 316 9 }

theorem witness_UnspecifiedContentsAreNeverRead :
    Inv fresh ∧ Inv freshOther ∧ SameSpecified fresh freshOther ∧ ∃ t, step fresh = .next t := by
  refine ⟨fresh_inv, ?_, ⟨rfl, fun a h => absurd h (Nat.not_lt_zero a), fun k h => absurd h (Nat.not_lt_zero k),
    ⟨rfl, fun _ => rfl⟩, ⟨rfl, fun _ => rfl⟩, ⟨rfl, fun _ => rfl⟩⟩, _, rfl⟩
  exact { fresh_inv with
    memory := by decide, frozen := by decide, lengths := List.length_replicate .., counts := by decide }

end Sys2Proof.Tests
end

/-! # Proofs about the state (10_state.md)

First the layer that the proofs share (a step as the outcome of its turn, and what agreeing on the specified state
means operation by operation), then the statements of 10_state.md. -/

namespace Sys2Proof.Machine

/-! ## A step is the outcome of its turn -/

/-- What a turn's work comes to. -/
def Work.outcome : Work → Host.Outcome State Fault Refusal
  | .run i s => exec i s
  | .settled o => o

@[simp] theorem Work.outcome_run (i : Instr) (s : State) : (Work.run i s).outcome = exec i s := rfl

@[simp] theorem Work.outcome_settled (o : Host.Outcome State Fault Refusal) : (Work.settled o).outcome = o := rfl

/-- A step is the outcome of the next turn, taken off the schedule (20 R70; log 1). -/
theorem step_eq_turnWork (s : State) : step s = (turnWork (nextTurn s) { s with sched := s.sched.tail }).outcome := by
  rw [step_eq, nextWork_eq]
  rfl

/-- A step whose turn is the first of a non-empty schedule. -/
theorem step_of_sched {s : State} {τ : Turn} {rest : List Turn} (h : s.sched = τ :: rest) :
    step s = (turnWork τ { s with sched := rest }).outcome := by
  rw [step_eq_turnWork, nextTurn, h]
  rfl

/-! ## Agreeing on the specified state: the fields -/

theorem sameTable_refl (t : HuffTable) : sameTable t t := ⟨rfl, fun _ => rfl⟩

/-- Two cleared tables agree whatever they held (93 U6). -/
theorem sameTable_clear (t u : HuffTable) : sameTable t.clear u.clear := ⟨rfl, nofun⟩

/-- Differing in OUT, LENS and the tables only, whatever stands there. -/
theorem specified_of_eq {s t : State} {o : Memory} {l : List (BitVec 4)} {c lt d : HuffTable}
    (h : t = { s with out := o, lens := l, tCl := c, tLit := lt, tDist := d }) :
    t = { s with out := t.out, lens := t.lens, tCl := t.tCl, tLit := t.tLit, tDist := t.tDist } := by
  rw [h]

namespace SameSpecified

variable {s t : State}

theorem cfg (h : SameSpecified s t) : t.cfg = s.cfg := (congrArg State.cfg h.1 :)
theorem sched (h : SameSpecified s t) : t.sched = s.sched := (congrArg State.sched h.1 :)
theorem freeReads (h : SameSpecified s t) : t.freeReads = s.freeReads := (congrArg State.freeReads h.1 :)
theorem arg0 (h : SameSpecified s t) : t.arg0 = s.arg0 := (congrArg State.arg0 h.1 :)
theorem arg1 (h : SameSpecified s t) : t.arg1 = s.arg1 := (congrArg State.arg1 h.1 :)
theorem arg2 (h : SameSpecified s t) : t.arg2 = s.arg2 := (congrArg State.arg2 h.1 :)
theorem state (h : SameSpecified s t) : t.state = s.state := (congrArg State.state h.1 :)
theorem taint (h : SameSpecified s t) : t.taint = s.taint := (congrArg State.taint h.1 :)
theorem bfinal (h : SameSpecified s t) : t.bfinal = s.bfinal := (congrArg State.bfinal h.1 :)
theorem csize (h : SameSpecified s t) : t.csize = s.csize := (congrArg State.csize h.1 :)
theorem usize (h : SameSpecified s t) : t.usize = s.usize := (congrArg State.usize h.1 :)
theorem inRecv (h : SameSpecified s t) : t.inRecv = s.inRecv := (congrArg State.inRecv h.1 :)
theorem pos (h : SameSpecified s t) : t.pos = s.pos := (congrArg State.pos h.1 :)
theorem npos (h : SameSpecified s t) : t.npos = s.npos := (congrArg State.npos h.1 :)
theorem storedRem (h : SameSpecified s t) : t.storedRem = s.storedRem := (congrArg State.storedRem h.1 :)
theorem hlit (h : SameSpecified s t) : t.hlit = s.hlit := (congrArg State.hlit h.1 :)
theorem hdist (h : SameSpecified s t) : t.hdist = s.hdist := (congrArg State.hdist h.1 :)
theorem lidx (h : SameSpecified s t) : t.lidx = s.lidx := (congrArg State.lidx h.1 :)
theorem mlen (h : SameSpecified s t) : t.mlen = s.mlen := (congrArg State.mlen h.1 :)
theorem outPtr (h : SameSpecified s t) : t.outPtr = s.outPtr := (congrArg State.outPtr h.1 :)
theorem hist (h : SameSpecified s t) : t.hist = s.hist := (congrArg State.hist h.1 :)

theorem visibleHistory (h : SameSpecified s t) : visibleHistory t = visibleHistory s :=
  (congrArg Machine.visibleHistory h.1 :)

theorem visible (h : SameSpecified s t) : visible t = visible s := (congrArg Machine.visible h.1 :)

theorem totalLengths (h : SameSpecified s t) : totalLengths t = totalLengths s := (congrArg Machine.totalLengths h.1 :)

theorem streamOf (h : SameSpecified s t) : streamOf t = streamOf s := (congrArg Machine.streamOf h.1 :)

theorem readPosition (h : SameSpecified s t) : readPosition t = readPosition s := (congrArg Machine.readPosition h.1 :)

theorem registerValue (h : SameSpecified s t) (k : Nat) : registerValue t k = registerValue s k :=
  (congrArg (Machine.registerValue · k) h.1 :)

theorem outByte (h : SameSpecified s t) {a : Nat} (ha : a < s.outPtr.toNat) : outByte t a = outByte s a :=
  let ⟨_, hout, _⟩ := h
  hout a ha

theorem lensAt (h : SameSpecified s t) {k : Nat} (hk : k < s.lidx.toNat) : lensAt t k = lensAt s k :=
  let ⟨_, _, hlens, _⟩ := h
  hlens k hk

theorem tables (h : SameSpecified s t) :
    sameTable s.tCl t.tCl ∧ sameTable s.tLit t.tLit ∧ sameTable s.tDist t.tDist :=
  let ⟨_, _, _, htables⟩ := h
  htables

theorem tCl (h : SameSpecified s t) : sameTable s.tCl t.tCl := h.tables.1

theorem tLit (h : SameSpecified s t) : sameTable s.tLit t.tLit := h.tables.2.1

theorem tDist (h : SameSpecified s t) : sameTable s.tDist t.tDist := h.tables.2.2

/-- The output below OUT_PTR is the same bytes. -/
theorem outSlice (h : SameSpecified s t) : outSlice t s.outPtr.toNat = outSlice s s.outPtr.toNat :=
  List.map_congr_left fun _ ha => h.outByte (List.mem_range.1 ha)

/-- A byte that a back-reference may reach is the same (42 R213). -/
theorem logical (h : SameSpecified s t) {a : Nat} (ha : a < Machine.visible s) : logical t a = logical s a := by
  simp only [Machine.logical, h.visibleHistory, h.hist]
  split
  · rfl
  · exact h.outByte (by simp only [Machine.visible] at ha; omega)

/-! ## Agreeing on the specified state: the operations that keep OUT, OUT_PTR, LENS, LIDX and the tables -/

theorem setSched (h : SameSpecified s t) (l : List Turn) : SameSpecified { s with sched := l } { t with sched := l } :=
  ⟨congrArg (fun u : State => { u with sched := l }) h.1, h.2⟩

theorem setNpos (h : SameSpecified s t) (q : Word) : SameSpecified { s with npos := q } { t with npos := q } :=
  ⟨congrArg (fun u : State => { u with npos := q }) h.1, h.2⟩

theorem setMlen (h : SameSpecified s t) (m : BitVec 9) : SameSpecified { s with mlen := m } { t with mlen := m } :=
  ⟨congrArg (fun u : State => { u with mlen := m }) h.1, h.2⟩

theorem setHist (h : SameSpecified s t) (l : List (List Byte)) :
    SameSpecified { s with hist := l } { t with hist := l } :=
  ⟨congrArg (fun u : State => { u with hist := l }) h.1, h.2⟩

theorem setDstate (h : SameSpecified s t) (d : DState) : SameSpecified { s with dstate := d } { t with dstate := d } :=
  ⟨congrArg (fun u : State => { u with dstate := d }) h.1, h.2⟩

theorem setStoredRem (h : SameSpecified s t) (n : BitVec 16) :
    SameSpecified { s with storedRem := n } { t with storedRem := n } :=
  ⟨congrArg (fun u : State => { u with storedRem := n }) h.1, h.2⟩

theorem raiseError (h : SameSpecified s t) (c : ErrCode) (a x : Nat) :
    SameSpecified (raiseError c a x s) (raiseError c a x t) :=
  ⟨congrArg (Machine.raiseError c a x) h.1, h.2⟩

theorem enterWaiting (h : SameSpecified s t) (r a : Nat) : SameSpecified (enterWaiting r a s) (enterWaiting r a t) :=
  ⟨congrArg (Machine.enterWaiting r a) h.1, h.2⟩

theorem counterUpdate (h : SameSpecified s t) : SameSpecified (counterUpdate s) (counterUpdate t) :=
  ⟨congrArg Machine.counterUpdate h.1, h.2⟩

theorem commitCursor (h : SameSpecified s t) : SameSpecified (commitCursor s) (commitCursor t) :=
  ⟨congrArg Machine.commitCursor h.1, h.2⟩

theorem latchBlock (h : SameSpecified s t) (f : Bool) (b : BitVec 2) (d : DState) :
    SameSpecified (latchBlock f b d s) (latchBlock f b d t) :=
  ⟨congrArg (Machine.latchBlock f b d) h.1, h.2⟩

theorem countStored (h : SameSpecified s t) : SameSpecified (countStored s) (countStored t) :=
  ⟨congrArg Machine.countStored h.1, h.2⟩

theorem deliver (h : SameSpecified s t) (k : Nat) : SameSpecified (deliver k s) (deliver k t) :=
  ⟨congrArg (Machine.deliver k) h.1, h.2⟩

theorem refuseAccess (h : SameSpecified s t) (why : Forbidden) :
    SameSpecified (refuseAccess why s) (refuseAccess why t) :=
  ⟨congrArg (Machine.refuseAccess why) h.1, h.2⟩

theorem answerHost (h : SameSpecified s t) (v : Word) : SameSpecified (answerHost v s) (answerHost v t) :=
  ⟨congrArg (Machine.answerHost v) h.1, h.2⟩

/-! ## Agreeing on the specified state: the operations that change one of them -/

theorem loadFixed (h : SameSpecified s t) : SameSpecified (loadFixed s) (loadFixed t) :=
  ⟨congrArg Machine.loadFixed h.1, fun _ => h.outByte, fun _ => h.lensAt, h.tCl, sameTable_refl _, sameTable_refl _⟩

/-- EntryInit leaves no OUT byte and no LENS entry specified, and no table built (43 R240). -/
theorem entryInit (h : SameSpecified s t) : SameSpecified (entryInit s) (entryInit t) :=
  ⟨congrArg Machine.entryInit h.1, fun _ ha => absurd ha (Nat.not_lt_zero _), fun _ hk => absurd hk (Nat.not_lt_zero _),
    sameTable_clear _ _, sameTable_clear _ _, sameTable_clear _ _⟩

theorem resume (h : SameSpecified s t) : SameSpecified (resume s) (resume t) :=
  ⟨congrArg (fun u : State => { u with errcode := 0, errpos := 0, erraux := 0, state := .run }) h.entryInit.1,
    h.entryInit.2⟩

theorem beginEntry (h : SameSpecified s t) (m : BitVec 8) (sol : Bool) (cs us : Word) :
    SameSpecified (beginEntry m sol cs us s) (beginEntry m sol cs us t) :=
  ⟨congrArg (Machine.beginEntry m sol cs us) h.1, h.entryInit.2⟩

theorem sessionReset (h : SameSpecified s t) (dest : EState) :
    SameSpecified (sessionReset dest s) (sessionReset dest t) :=
  ⟨congrArg (Machine.sessionReset dest) h.1, fun _ ha => absurd ha (Nat.not_lt_zero _), fun _ _ => rfl,
    sameTable_refl _, sameTable_refl _, sameTable_refl _⟩

theorem hardReset (h : SameSpecified s t) : SameSpecified (hardReset s) (hardReset t) :=
  ⟨congrArg Machine.hardReset h.1, fun _ ha => absurd ha (Nat.not_lt_zero _), fun _ _ => rfl,
    sameTable_refl _, sameTable_refl _, sameTable_refl _⟩

/-- The byte appended is the only new OUT byte below OUT_PTR (42 R212). -/
theorem putByte (h : SameSpecified s t) (b : Byte) : SameSpecified (putByte b s) (putByte b t) := by
  refine ⟨specified_of_eq (congrArg (Machine.putByte b) h.1), fun a ha => ?_, fun _ => h.lensAt, h.tables⟩
  rw [outByte_putByte, outByte_putByte, h.outPtr]
  split
  · rfl
  · have hle : (Machine.putByte b s).outPtr.toNat ≤ s.outPtr.toNat + 1 := Nat.mod_le _ _
    exact h.outByte (by omega)

/-- Every byte that OutCopy reads is specified (42 R214). -/
theorem copyLoop {dist : Nat} (hd : 1 ≤ dist) (k : Nat) (h : SameSpecified s t) (hv : dist ≤ Machine.visible s)
    (hk : s.outPtr.toNat + k < 2 ^ 32) : SameSpecified (copyLoop dist k s) (copyLoop dist k t) := by
  induction k generalizing s t with
  | zero => exact h
  | succ k ih =>
    have hread : Machine.visibleHistory s + s.outPtr.toNat - dist < Machine.visible s := by
      simp only [Machine.visible] at hv ⊢
      omega
    have hptr (b : Byte) : (Machine.putByte b s).outPtr.toNat = s.outPtr.toNat + 1 := by
      simp only [putByte_outPtr, BitVec.toNat_ofNat]
      omega
    simp only [Machine.copyLoop, h.visibleHistory, h.outPtr, h.logical hread]
    refine ih (h.putByte _) ?_ (by rw [hptr]; omega)
    simp only [Machine.visible, visibleHistory_putByte, hptr] at hv ⊢
    omega

theorem freeze (h : SameSpecified s t) : SameSpecified (freeze s) (freeze t) := by
  have hnew : retain t.cfg.histRetain (t.hist ++ [Machine.outSlice t t.outPtr.toNat]) =
      retain s.cfg.histRetain (s.hist ++ [Machine.outSlice s s.outPtr.toNat]) := by
    rw [h.cfg, h.hist, h.outPtr, h.outSlice]
  unfold Machine.freeze
  rw [hnew]
  exact h.setHist _

/-- After a run of code lengths the entries below the new end agree, whatever stood there (41 R182). -/
theorem lensAt_writeRun (h : SameSpecified s t) (hlen : t.lens.length = s.lens.length) (v : BitVec 4) (r : Nat)
    {k : Nat} (hk : k < s.lidx.toNat + r) : Machine.lensAt (writeRun v r t) k = Machine.lensAt (writeRun v r s) k := by
  simp only [Machine.lensAt, writeRun_lens, h.lidx]
  rcases Nat.lt_or_ge k s.lens.length with hin | hout
  · rw [setRun_getD _ _ _ _ _ (hlen ▸ hin), setRun_getD _ _ _ _ _ hin]
    split
    · rfl
    · exact h.lensAt (by omega)
  · rw [List.getD_eq_default _ _ (by rw [setRun_length, hlen]; exact hout),
      List.getD_eq_default _ _ (by rw [setRun_length]; exact hout)]

theorem writeRun (h : SameSpecified s t) (hlen : t.lens.length = s.lens.length) (v : BitVec 4) (r : Nat) :
    SameSpecified (writeRun v r s) (writeRun v r t) :=
  ⟨specified_of_eq (congrArg (Machine.writeRun v r) h.1), fun _ => h.outByte,
    fun _ hk => h.lensAt_writeRun hlen v r (Nat.lt_of_lt_of_le hk (Nat.mod_le _ _)), h.tables⟩

end SameSpecified

end Sys2Proof.Machine

namespace Sys2Proof.Machine

/-! ## Agreeing on the specified state: the rules of the elements and the commands -/

/-- Two rules answer the same raise, or states that agree on what is specified. -/
inductive SameResult : Except Raise State → Except Raise State → Prop where
  | ok {s t : State} (h : SameSpecified s t) : SameResult (.ok s) (.ok t)
  | error (r : Raise) : SameResult (.error r) (.error r)

theorem SameResult.ite {c d : Prop} [Decidable c] [Decidable d] {x x' y y' : Except Raise State} (hcd : c ↔ d)
    (hx : c → SameResult x x') (hy : ¬ c → SameResult y y') :
    SameResult (if c then x else y) (if d then x' else y') := by
  by_cases h : c
  · rw [if_pos h, if_pos (hcd.1 h)]
    exact hx h
  · rw [if_neg h, if_neg (mt hcd.2 h)]
    exact hy h

/-- Two outcomes are the same refusal, or next states that agree on what is specified. -/
inductive SameOutcome : Host.Outcome State Fault Refusal → Host.Outcome State Fault Refusal → Prop where
  | next {s t : State} (h : SameSpecified s t) : SameOutcome (.next s) (.next t)
  | refused (r : Refusal) : SameOutcome (.refused r) (.refused r)

/-- Outcomes that agree: a next state on one side is a next state on the other. -/
theorem SameOutcome.exists_next {o : Host.Outcome State Fault Refusal} {s : State} (h : SameOutcome (.next s) o) :
    ∃ t, o = .next t ∧ SameSpecified s t := by
  cases h with
  | next h => exact ⟨_, rfl, h⟩

/-- HuffDecode reads the table only if it is built (41 R179). -/
theorem huffDecode_congr {t u : HuffTable} (h : sameTable t u) (st : Stream) (p : Nat) :
    huffDecode u st p = huffDecode t st p := by
  obtain ⟨hbuilt, heq⟩ := h
  cases hb : t.built with
  | true => rw [heq hb]
  | false => simp [huffDecode, ← hbuilt, hb]

/-- The length set of a block is the same when the LENS entries that it uses are. -/
theorem litLengths_congr {s t : State} (hl : t.hlit = s.hlit) (h : ∀ k, k < s.hlit.toNat → lensAt t k = lensAt s k) :
    litLengths t = litLengths s := by
  refine List.map_congr_left fun k _ => ?_
  rw [hl]
  split
  · rw [h k ‹_›]
  · rfl

theorem distLengths_congr {s t : State} (hl : t.hlit = s.hlit) (hd : t.hdist = s.hdist)
    (h : ∀ k, k < totalLengths s → lensAt t k = lensAt s k) : distLengths t = distLengths s := by
  refine List.map_congr_left fun k _ => ?_
  rw [hl, hd]
  split
  · rw [h _ (Nat.add_lt_add_left ‹_› _)]
  · rfl

namespace SameSpecified

variable {s t : State}

theorem raiseUnderrun (h : SameSpecified s t) (r a : Nat) :
    SameSpecified (raiseUnderrun r a s) (raiseUnderrun r a t) := by
  simp only [Machine.raiseUnderrun, h.inRecv, h.csize]
  split
  · exact h.enterWaiting r a
  · exact h.raiseError _ a r

theorem takeRaise (h : SameSpecified s t) (r : Raise) : SameOutcome (takeRaise r s) (takeRaise r t) := by
  cases r with
  | error c a x => exact .next (h.raiseError c a x)
  | underrun q a => exact .next (h.raiseUnderrun q a)
  | outside u => exact .refused u.refusal

theorem runElement (h : SameSpecified s t) {x y : Except Raise State} (hxy : SameResult x y) :
    SameOutcome (runElement s x) (runElement t y) := by
  cases hxy with
  | ok h' => exact .next h'.commitCursor.counterUpdate
  | error r => exact h.takeRaise r

theorem runCommand (h : SameSpecified s t) {x y : Except Raise State} (hxy : SameResult x y) :
    SameOutcome (runCommand s x) (runCommand t y) := by
  cases hxy with
  | ok h' => exact .next h'
  | error r => exact h.takeRaise r

theorem outAppend (h : SameSpecified s t) (b : Byte) : SameResult (outAppend b s) (outAppend b t) := by
  simp only [Machine.outAppend, h.usize, h.outPtr, h.pos]
  split
  · exact .error _
  · exact .ok (h.putByte b)

theorem outCopy (h : SameSpecified s t) (len dist : Nat) : SameResult (outCopy len dist s) (outCopy len dist t) := by
  simp only [Machine.outCopy, h.visible, h.usize, h.outPtr, h.pos]
  split
  · exact .error _
  split
  · exact .error _
  · have husize := s.usize.isLt
    exact .ok (h.copyLoop (by omega) len (by omega) (by omega))

theorem distanceField (h : SameSpecified s t) (d x : Nat) : SameResult (distanceField d x s) (distanceField d x t) := by
  simp only [Machine.distanceField, h.pos, h.mlen]
  split
  · exact .error _
  · exact h.outCopy _ _

theorem matchField (h : SameSpecified s t) (sym e d x : Nat) :
    SameResult (matchField sym e d x s) (matchField sym e d x t) :=
  (h.setMlen _).distanceField d x

theorem invalidLitlen (h : SameSpecified s t) (sym : Nat) : SameResult (invalidLitlen sym s) (invalidLitlen sym t) := by
  simp only [Machine.invalidLitlen, h.pos]
  exact .error _

theorem illegalCommand (h : SameSpecified s t) (reason op : Nat) :
    SameResult (illegalCommand reason op s) (illegalCommand reason op t) := by
  simp only [Machine.illegalCommand, h.pos]
  exact .error _

theorem finish (h : SameSpecified s t) : SameResult (finish s) (finish t) := by
  refine .ite (by rw [h.outPtr, h.usize]) (fun _ => ?_) fun _ => ?_
  · rw [h.npos, h.outPtr]
    exact .error _
  · exact .ok ⟨congrArg (fun u : State => { u with
      evlog := u.evlog ++ [Event.extract u.filesDone u.usize]
      filesDone := BitVec.ofNat 32 (u.filesDone.toNat + 1)
      state := .done
      dstate := .none }) h.freeze.1, h.freeze.2⟩

theorem endOfBlock (h : SameSpecified s t) : SameResult (endOfBlock s) (endOfBlock t) := by
  refine .ite (by rw [h.bfinal]) (fun _ => ?_) fun _ => ?_
  · exact h.finish
  · exact .ok (h.setDstate _)

theorem storedHeader (h : SameSpecified s t) (len nlen : BitVec 16) :
    SameResult (storedHeader len nlen s) (storedHeader len nlen t) := by
  refine .ite .rfl (fun _ => ?_) fun _ => .ite .rfl (fun _ => ?_) fun _ => ?_
  · rw [h.pos]
    exact .error _
  · exact (h.setStoredRem len).endOfBlock
  · exact .ok ((h.setStoredRem len).setDstate _)

theorem storedByte (h : SameSpecified s t) (b : Byte) : SameResult (storedByte b s) (storedByte b t) := by
  have happ := h.outAppend b
  unfold Machine.storedByte
  generalize Machine.outAppend b s = x at happ ⊢
  generalize Machine.outAppend b t = y at happ ⊢
  cases happ with
  | error r => exact .error r
  | ok h' =>
    simp only [h'.countStored.storedRem]
    split
    · exact h'.countStored.endOfBlock
    · exact .ok h'.countStored

theorem finishIfFull (h : SameSpecified s t) : SameResult (finishIfFull s) (finishIfFull t) := by
  simp only [Machine.finishIfFull, h.outPtr, h.usize]
  split
  · exact h.finish
  · exact .ok h

theorem rawByte (h : SameSpecified s t) (b : Byte) : SameResult (rawByte b s) (rawByte b t) := by
  simp only [Machine.rawByte, h.outPtr, h.usize]
  split
  · have happ := h.outAppend b
    generalize Machine.outAppend b s = x at happ ⊢
    generalize Machine.outAppend b t = y at happ ⊢
    cases happ with
    | error r => exact .error r
    | ok h' => exact h'.finishIfFull
  · exact h.finishIfFull

theorem dynamicCounts (h : SameSpecified s t) (l d c : Nat) :
    SameResult (dynamicCounts l d c s) (dynamicCounts l d c t) := by
  refine .ite .rfl (fun _ => ?_) fun _ => .ite .rfl (fun _ => ?_) fun _ => ?_
  · rw [h.pos]
    exact .error _
  · rw [h.pos]
    exact .error _
  · exact .ok ⟨congrArg (fun u : State => { u with
      hlit := BitVec.ofNat 9 (hlitOf l)
      hdist := BitVec.ofNat 6 (hdistOf d)
      hclen := BitVec.ofNat 5 (hclenOf c)
      dstate := .dynCllen }) h.1, h.2⟩

/-- The code-length table is new, and no LENS entry stays specified (43 R248). -/
theorem buildCl (h : SameSpecified s t) (ls : List (BitVec 3)) : SameResult (buildCl ls s) (buildCl ls t) := by
  have hbuild : huffBuild 0 (clLengths ls) Config.maxBitsCl t.pos.toNat =
      huffBuild 0 (clLengths ls) Config.maxBitsCl s.pos.toNat := by rw [h.pos]
  unfold Machine.buildCl
  rw [hbuild]
  cases huffBuild 0 (clLengths ls) Config.maxBitsCl s.pos.toNat with
  | error r => exact .error r
  | ok cl =>
    exact .ok ⟨congrArg (fun u : State => { u with tCl := cl, lidx := 0, dstate := .dynLens }) h.1,
      fun _ => h.outByte, fun _ hk => absurd hk (Nat.not_lt_zero _), sameTable_refl _, h.tLit, h.tDist⟩

/-- The tables are built from LENS below HLIT + HDIST (43 R250). -/
theorem buildDynamic (h : SameSpecified s t)
    (hlens : ∀ k, k < Machine.totalLengths s → Machine.lensAt t k = Machine.lensAt s k) :
    SameResult (buildDynamic s) (buildDynamic t) := by
  have hlit : litLengths t = litLengths s :=
    litLengths_congr h.hlit fun k hk => hlens k (Nat.lt_of_lt_of_le hk (Nat.le_add_right _ _))
  have hdist : distLengths t = distLengths s := distLengths_congr h.hlit h.hdist hlens
  refine .ite (by rw [hlit]) (fun _ => ?_) fun _ => ?_
  · rw [h.pos]
    exact .error _
  rw [hlit, hdist, show t.pos.toNat = s.pos.toNat by rw [h.pos]]
  cases huffBuild 1 (litLengths s) Config.maxBitsLitDist s.pos.toNat with
  | error r => exact .error r
  | ok lt =>
    cases huffBuild 2 (distLengths s) Config.maxBitsLitDist s.pos.toNat with
    | error r => exact .error r
    | ok dt =>
      exact .ok ⟨congrArg (fun u : State => { u with tLit := lt, tDist := dt, dstate := .huffData }) h.1,
        fun _ => h.outByte, fun _ => h.lensAt, h.tCl, sameTable_refl _, sameTable_refl _⟩

theorem applyRun (h : SameSpecified s t) (hlen : t.lens.length = s.lens.length) (v : BitVec 4) (r : Nat) :
    SameResult (applyRun v r s) (applyRun v r t) := by
  simp only [Machine.applyRun, h.totalLengths, h.lidx, h.pos]
  split
  · exact .error _
  split
  · rename_i htotal
    exact (h.writeRun hlen v r).buildDynamic fun k hk => h.lensAt_writeRun hlen v r (htotal ▸ hk)
  · exact .ok (h.writeRun hlen v r)

theorem repeatPrevious (h : SameSpecified s t) (hlen : t.lens.length = s.lens.length) (r : Nat) :
    SameResult (repeatPrevious r s) (repeatPrevious r t) := by
  simp only [Machine.repeatPrevious, h.lidx, h.pos]
  split
  · exact .error _
  · rename_i hne
    have hpos : s.lidx.toNat ≠ 0 := fun h0 => hne (BitVec.eq_of_toNat_eq h0)
    rw [h.lensAt (by omega)]
    exact h.applyRun hlen _ _

theorem startEntry (h : SameSpecified s t) (a0 cs us : Word) :
    SameResult (startEntry a0 cs us s) (startEntry a0 cs us t) := by
  simp only [Machine.startEntry, h.state, h.cfg, h.taint, h.pos]
  split
  · exact h.illegalCommand _ _
  split
  · exact h.illegalCommand _ _
  split
  · exact .error _
  split
  · exact .error _
  split
  · exact .error _
  · exact .ok (h.beginEntry _ _ _ _)

theorem appendInput (h : SameSpecified s t) (k : Word) : SameResult (appendInput k s) (appendInput k t) := by
  simp only [Machine.appendInput, h.state, h.csize, h.inRecv]
  split
  · exact h.illegalCommand _ _
  split
  · exact h.illegalCommand _ _
  split
  · exact .ok (h.deliver _).resume
  · exact .ok (h.deliver _)

/-! ## Agreeing on the specified state: fetch, instructions and turns -/

/-- The element at the cursor does not depend on the tables that are not built (41 R179). -/
theorem fetchElement (h : SameSpecified s t) : fetchElement t = fetchElement s := by
  have hctx : decodeCtx t = { decodeCtx s with tCl := t.tCl, tLit := t.tLit, tDist := t.tDist } :=
    (congrArg decodeCtx h.1 :)
  simp only [Machine.fetchElement, hctx, h.pos, h.streamOf, h.readPosition]
  unfold decodeElement
  cases (decodeCtx s).dstate with
  | dynLens => simp only [decodeClSymbol, huffDecode_congr h.tCl, decodeCtx]
  | huffData =>
    simp only [decodeDistanceField, decodeData, decodeMatch, readDistance, huffDecode_congr h.tLit,
      huffDecode_congr h.tDist, decodeCtx]
  | _ => rfl

/-- No instruction's meaning depends on what is not specified. -/
theorem exec (h : SameSpecified s t) (hlen : t.lens.length = s.lens.length) (i : Instr) :
    SameOutcome (exec i s) (exec i t) := by
  cases hm : i.matchFields with
  | some f =>
    rw [exec_match (sym := f.1) (e := f.2.1) (d := f.2.2.1) (x := f.2.2.2) hm s, exec_match hm t]
    exact h.runElement (h.matchField _ _ _ _)
  | none =>
    cases hd : i.distanceFields with
    | some f =>
      rw [exec_distance (d := f.1) (x := f.2) hd s, exec_distance hd t]
      exact h.runElement (h.distanceField _ _)
    | none =>
      cases i with
      | nop => exact h.runCommand (.ok h)
      | openSession => exact h.runCommand (.ok (h.sessionReset _))
      | closeSession => exact h.runCommand (.ok (h.sessionReset _))
      | startEntry =>
        refine h.runCommand ?_
        rw [h.arg0, h.arg1, h.arg2]
        exact h.startEntry _ _ _
      | appendInput =>
        refine h.runCommand ?_
        rw [h.arg0]
        exact h.appendInput _
      | illegalOpcode op => exact h.runCommand (h.illegalCommand _ _)
      | blockStored f => exact h.runElement (.ok (h.latchBlock _ _ _))
      | blockFixed f => exact h.runElement (.ok (h.latchBlock _ _ _).loadFixed)
      | blockDynamic f => exact h.runElement (.ok (h.latchBlock _ _ _))
      | blockReserved f =>
        have hraise : SameResult (.error (.error .invalidBlockType s.pos.toNat 3))
            (.error (.error .invalidBlockType t.pos.toNat 3)) := by
          rw [h.pos]
          exact .error _
        exact h.runElement hraise
      | storedHdr len nlen => exact h.runElement (h.storedHeader _ _)
      | storedByte b => exact h.runElement (h.storedByte b)
      | dynCounts l d c => exact h.runElement (h.dynamicCounts _ _ _)
      | dynCllen ls => exact h.runElement (h.buildCl ls)
      | clLen n => exact h.runElement (h.applyRun hlen _ _)
      | clRepeatPrev r => exact h.runElement (h.repeatPrevious hlen _)
      | clRepeatZeroShort r => exact h.runElement (h.applyRun hlen _ _)
      | clRepeatZeroLong r => exact h.runElement (h.applyRun hlen _ _)
      | lit b => exact h.runElement (h.outAppend b)
      | eob => exact h.runElement h.endOfBlock
      | litlenInvalid286 => exact h.runElement (h.invalidLitlen _)
      | litlenInvalid287 => exact h.runElement (h.invalidLitlen _)
      | rawByte b => exact h.runElement (h.rawByte b)
      | _ => simp [Instr.matchFields, Instr.distanceFields] at hm hd

/-- The engine's turn (43 R241). -/
theorem engineWork (h : SameSpecified s t) (hlen : t.lens.length = s.lens.length) :
    SameOutcome (engineWork s).outcome (engineWork t).outcome := by
  by_cases hrun : s.state = .run
  · have hrun' : t.state = .run := h.state.trans hrun
    unfold Machine.engineWork
    rw [if_pos hrun, if_pos hrun', h.fetchElement]
    cases Machine.fetchElement s with
    | ok iq => exact (h.setNpos (BitVec.ofNat 32 iq.2)).exec hlen iq.1
    | error r => exact h.takeRaise r
  · rw [engineWork_idle s hrun, engineWork_idle t (h.state ▸ hrun)]
    exact .next h

theorem writeRegister (h : SameSpecified s t) (k : Nat) (w : Word) :
    SameSpecified (writeRegister k w s) (writeRegister k w t) := by
  unfold Machine.writeRegister
  split
  · exact ⟨congrArg (fun u : State => { u with arg0 := w }) h.1, h.2⟩
  · exact ⟨congrArg (fun u : State => { u with arg1 := w }) h.1, h.2⟩
  · exact ⟨congrArg (fun u : State => { u with arg2 := w }) h.1, h.2⟩
  · exact h

theorem registerWriteWork (h : SameSpecified s t) (hlen : t.lens.length = s.lens.length) (offset size : Nat)
    (w : Word) : SameOutcome (registerWriteWork offset size w s).outcome (registerWriteWork offset size w t).outcome := by
  unfold Machine.registerWriteWork
  split
  · exact .next (h.refuseAccess _)
  · split
    · exact h.exec hlen _
    · exact .next (h.writeRegister _ w)

theorem readRegister (h : SameSpecified s t) (offset size : Nat) :
    SameSpecified (readRegister offset size s) (readRegister offset size t) := by
  simp only [Machine.readRegister, h.registerValue]
  split
  · exact h.refuseAccess _
  · exact h.answerHost _

theorem writeIn (h : SameSpecified s t) (a : Nat) (b : Byte) : SameSpecified (writeIn a b s) (writeIn a b t) := by
  have hforbidden : inWriteForbidden a t = inWriteForbidden a s := (congrArg (inWriteForbidden a) h.1 :)
  simp only [Machine.writeIn, hforbidden]
  split
  · exact h.refuseAccess _
  · exact ⟨congrArg (fun u : State => { u with inp := u.inp.write a b }) h.1, h.2⟩

/-- A host read of OUT answers a specified byte or a free value (44 R309): in DONE all the output is specified. -/
theorem readOut (h : SameSpecified s t) (hdone : s.state = .done → s.outPtr = s.usize) (a : Nat) :
    SameSpecified (readOut a s) (readOut a t) := by
  simp only [Machine.readOut, h.cfg, h.state, h.usize, h.freeReads]
  split
  · exact h.refuseAccess _
  split
  · rename_i hread
    rw [h.outByte (by rw [hdone hread.1]; exact hread.2)]
    exact h.answerHost _
  · exact ⟨congrArg (fun u : State => { Machine.answerHost _ u with freeReads := s.freeReads + 1 }) h.1, h.2⟩

theorem writeOut (h : SameSpecified s t) (a : Nat) (b : Byte) : SameSpecified (writeOut a b s) (writeOut a b t) := by
  simp only [Machine.writeOut, h.cfg]
  split
  · exact h.refuseAccess _
  · exact h.refuseAccess _

/-- No turn's outcome depends on what is not specified. -/
theorem turnWork (h : SameSpecified s t) (hlen : t.lens.length = s.lens.length)
    (hdone : s.state = .done → s.outPtr = s.usize) (τ : Turn) :
    SameOutcome (turnWork τ s).outcome (turnWork τ t).outcome := by
  cases τ with
  | engine => exact h.engineWork hlen
  | hardReset => exact .next h.hardReset
  | regWrite offset size w => exact h.registerWriteWork hlen offset size w
  | regRead offset size => exact .next (h.readRegister offset size)
  | inWrite a b => exact .next (h.writeIn a b)
  | outRead a => exact .next (h.readOut hdone a)
  | outWrite a b => exact .next (h.writeOut a b)

end SameSpecified

/-- Settles O60: the turns to come are the same, each turn's outcome depends on specified contents only, and the
invariant gives what a turn needs (LENS has its 316 entries, in DONE all the output lies below OUT_PTR). -/
theorem unspecifiedContentsAreNeverRead : Obligations.UnspecifiedContentsAreNeverRead := by
  intro s t s' hs ht h hstep
  have hturn : nextTurn t = nextTurn s := by rw [nextTurn, h.sched, nextTurn]
  have hlen : t.lens.length = s.lens.length := by rw [hs.lengths, ht.lengths]
  obtain ⟨_, _, hprogress⟩ := hs.progress
  have hdone (hd : s.state = .done) : s.outPtr = s.usize := (hprogress hd).2
  have hout := (h.setSched s.sched.tail).turnWork hlen hdone (nextTurn s)
  rw [← step_eq_turnWork, hstep] at hout
  rw [step_eq_turnWork t, hturn, h.sched]
  exact hout.exists_next

end Sys2Proof.Machine

namespace Sys2Proof.Machine

/-! ## The event log and the parameters (10 R39, R40; 00 R5) -/

/-- From `s` to `t` the parameters stay and EVLOG grows by at most one record. -/
def LogStep (s t : State) : Prop := t.cfg = s.cfg ∧ ∃ es, es.length ≤ 1 ∧ t.evlog = s.evlog ++ es

/-- What a rule answers from `s`, if it does not raise, is a log step. -/
def RuleLogs (s : State) (x : Except Raise State) : Prop := ∀ u, x = .ok u → LogStep s u

/-- What an outcome from `s` answers, if it is a next state, is a log step. -/
def OutcomeLogs (s : State) (o : Host.Outcome State Fault Refusal) : Prop := ∀ t, o = .next t → LogStep s t

theorem LogStep.keep {s t : State} (hcfg : t.cfg = s.cfg) (hlog : t.evlog = s.evlog) : LogStep s t :=
  ⟨hcfg, [], Nat.zero_le 1, by rw [hlog, List.append_nil]⟩

theorem LogStep.record {s t : State} (e : Event) (hcfg : t.cfg = s.cfg) (hlog : t.evlog = s.evlog ++ [e]) :
    LogStep s t :=
  ⟨hcfg, [e], Nat.le_refl 1, hlog⟩

namespace RuleLogs

theorem ok {s u : State} (h : LogStep s u) : RuleLogs s (.ok u) := fun _ hu => by cases hu; exact h

theorem error (s : State) (r : Raise) : RuleLogs s (.error r) := fun _ hu => by simp at hu

theorem ite {s : State} {c : Prop} [Decidable c] {x y : Except Raise State} (hx : RuleLogs s x) (hy : RuleLogs s y) :
    RuleLogs s (if c then x else y) := by
  split
  · exact hx
  · exact hy

theorem sessionReset (dest : EState) (s : State) : RuleLogs s (.ok (sessionReset dest s)) := .ok (.keep rfl rfl)

theorem illegalCommand (reason op : Nat) (s : State) : RuleLogs s (illegalCommand reason op s) := error _ _

theorem latchBlock (f : Bool) (b : BitVec 2) (d : DState) (s : State) : RuleLogs s (.ok (latchBlock f b d s)) :=
  .ok (.keep rfl rfl)

theorem loadFixed (s : State) : RuleLogs s (.ok (loadFixed s)) := .ok (.keep rfl rfl)

theorem invalidLitlen (sym : Nat) (s : State) : RuleLogs s (invalidLitlen sym s) := error _ _

theorem outAppend (b : Byte) (s : State) : RuleLogs s (outAppend b s) :=
  .ite (error _ _) (.ok (.keep rfl rfl))

theorem outCopy (len dist : Nat) (s : State) : RuleLogs s (outCopy len dist s) := by
  refine .ite (error _ _) (.ite (error _ _) (.ok ?_))
  rw [copyLoop_frame]
  exact .keep rfl rfl

theorem distanceField (d x : Nat) (s : State) : RuleLogs s (distanceField d x s) :=
  .ite (error _ _) (outCopy _ _ s)

theorem matchField (sym e d x : Nat) (s : State) : RuleLogs s (matchField sym e d x s) :=
  distanceField d x { s with mlen := BitVec.ofNat 9 (matchLength sym e) }

/-- A finished entry leaves its one record (43 R257). -/
theorem finish (s : State) : RuleLogs s (finish s) :=
  .ite (error _ _) (.ok (.record (.extract s.filesDone s.usize) rfl rfl))

theorem endOfBlock (s : State) : RuleLogs s (endOfBlock s) :=
  .ite (finish s) (.ok (.keep rfl rfl))

theorem storedHeader (len nlen : BitVec 16) (s : State) : RuleLogs s (storedHeader len nlen s) :=
  .ite (error _ _) (.ite (endOfBlock { s with storedRem := len }) (.ok (.keep rfl rfl)))

theorem storedByte (b : Byte) (s : State) : RuleLogs s (storedByte b s) := by
  unfold Machine.storedByte
  rcases Nat.lt_or_ge s.outPtr.toNat s.usize.toNat with hroom | hfull
  · rw [outAppend_ok b s hroom]
    exact .ite (endOfBlock (countStored (putByte b s))) (.ok (.keep rfl rfl))
  · rw [outAppend_full b s hfull]
    exact error _ _

theorem finishIfFull (s : State) : RuleLogs s (finishIfFull s) :=
  .ite (finish s) (.ok (.keep rfl rfl))

theorem rawByte (b : Byte) (s : State) : RuleLogs s (rawByte b s) := by
  unfold Machine.rawByte
  split
  · rw [outAppend_ok b s ‹_›]
    exact finishIfFull (putByte b s)
  · exact finishIfFull s

theorem dynamicCounts (l d c : Nat) (s : State) : RuleLogs s (dynamicCounts l d c s) :=
  .ite (error _ _) (.ite (error _ _) (.ok (.keep rfl rfl)))

theorem buildCl (ls : List (BitVec 3)) (s : State) : RuleLogs s (buildCl ls s) := by
  unfold Machine.buildCl
  cases huffBuild 0 (clLengths ls) Config.maxBitsCl s.pos.toNat with
  | error r => exact error _ _
  | ok cl => exact .ok (.keep rfl rfl)

theorem buildDynamic (s : State) : RuleLogs s (buildDynamic s) := by
  rcases buildDynamic_cases s with ⟨_, e⟩ | ⟨_, _, e⟩ | ⟨_, _, _, e⟩ | ⟨_, _, _, e⟩ <;> rw [e]
  · exact error _ _
  · exact error _ _
  · exact error _ _
  · exact .ok (.keep rfl rfl)

theorem applyRun (v : BitVec 4) (r : Nat) (s : State) : RuleLogs s (applyRun v r s) :=
  .ite (error _ _) (.ite (buildDynamic (writeRun v r s)) (.ok (.keep rfl rfl)))

theorem repeatPrevious (r : Nat) (s : State) : RuleLogs s (repeatPrevious r s) :=
  .ite (error _ _) (applyRun _ _ s)

theorem startEntry (a0 cs us : Word) (s : State) : RuleLogs s (startEntry a0 cs us s) := by
  rcases startEntry_cases a0 cs us s with ⟨c, x, e⟩ | ⟨_, _, _, _, _, _, e⟩ <;> rw [e]
  · exact error _ _
  · exact .ok (.keep rfl rfl)

theorem appendInput (k : Word) (s : State) : RuleLogs s (appendInput k s) := by
  rcases appendInput_cases k s with ⟨x, e⟩ | ⟨_, _, ⟨_, e⟩ | ⟨_, e⟩⟩ <;> rw [e]
  · exact error _ _
  · exact .ok (.keep rfl rfl)
  · exact .ok (.keep rfl rfl)

end RuleLogs

namespace OutcomeLogs

theorem next {s t : State} (h : LogStep s t) : OutcomeLogs s (.next t) := fun _ ht => by cases ht; exact h

/-- An error and an underrun leave one record each (60 R341, R345). -/
theorem takeRaise (r : Raise) (s : State) : OutcomeLogs s (takeRaise r s) := by
  intro t ht
  rcases takeRaise_next r s t ht with ⟨c, a, x, rfl⟩ | ⟨q, a, rfl, _⟩
  · exact .record _ rfl (raiseError_evlog c a x s)
  · exact .record _ rfl (enterWaiting_evlog q a s)

theorem runElement {s : State} {x : Except Raise State} (h : RuleLogs s x) : OutcomeLogs s (runElement s x) := by
  intro t ht
  rcases runElement_next s t x ht with ⟨u, hx, rfl⟩ | ⟨r, _, hr⟩
  · exact h u hx
  · exact takeRaise r s t hr

theorem runCommand {s : State} {x : Except Raise State} (h : RuleLogs s x) : OutcomeLogs s (runCommand s x) := by
  intro t ht
  rcases runCommand_next s t x ht with hx | ⟨r, _, hr⟩
  · exact h t hx
  · exact takeRaise r s t hr

theorem exec (i : Instr) (s : State) : OutcomeLogs s (exec i s) := by
  cases hm : i.matchFields with
  | some f =>
    rw [exec_match (sym := f.1) (e := f.2.1) (d := f.2.2.1) (x := f.2.2.2) hm s]
    exact runElement (.matchField _ _ _ _ s)
  | none =>
    cases hd : i.distanceFields with
    | some f =>
      rw [exec_distance (d := f.1) (x := f.2) hd s]
      exact runElement (.distanceField _ _ s)
    | none =>
      cases i with
      | nop => exact runCommand (.ok (.keep rfl rfl))
      | openSession => exact runCommand (.sessionReset _ s)
      | closeSession => exact runCommand (.sessionReset _ s)
      | startEntry => exact runCommand (.startEntry _ _ _ s)
      | appendInput => exact runCommand (.appendInput _ s)
      | illegalOpcode op => exact runCommand (.illegalCommand _ _ s)
      | blockStored f => exact runElement (.latchBlock _ _ _ s)
      | blockFixed f => exact runElement (.loadFixed (Machine.latchBlock f 1 .huffData s))
      | blockDynamic f => exact runElement (.latchBlock _ _ _ s)
      | blockReserved f => exact runElement (.error s (.error .invalidBlockType s.pos.toNat 3))
      | storedHdr len nlen => exact runElement (.storedHeader _ _ s)
      | storedByte b => exact runElement (.storedByte b s)
      | dynCounts l d c => exact runElement (.dynamicCounts _ _ _ s)
      | dynCllen ls => exact runElement (.buildCl ls s)
      | clLen n => exact runElement (.applyRun _ _ s)
      | clRepeatPrev r => exact runElement (.repeatPrevious _ s)
      | clRepeatZeroShort r => exact runElement (.applyRun _ _ s)
      | clRepeatZeroLong r => exact runElement (.applyRun _ _ s)
      | lit b => exact runElement (.outAppend b s)
      | eob => exact runElement (.endOfBlock s)
      | litlenInvalid286 => exact runElement (.invalidLitlen _ s)
      | litlenInvalid287 => exact runElement (.invalidLitlen _ s)
      | rawByte b => exact runElement (.rawByte b s)
      | _ => simp [Instr.matchFields, Instr.distanceFields] at hm hd

theorem engineWork (s : State) : OutcomeLogs s (engineWork s).outcome := by
  by_cases hrun : s.state = .run
  · rcases engineWork_run s hrun with ⟨i, q, _, e⟩ | ⟨r, _, e⟩ <;> rw [e]
    · exact exec i { s with npos := BitVec.ofNat 32 q }
    · exact takeRaise r s
  · rw [engineWork_idle s hrun]
    exact next (.keep rfl rfl)

theorem registerWriteWork (offset size : Nat) (w : Word) (s : State) :
    OutcomeLogs s (registerWriteWork offset size w s).outcome := by
  rcases registerWriteWork_cases offset size w s with ⟨why, _, e⟩ | ⟨_, _, e⟩ | ⟨_, _, e⟩ <;> rw [e]
  · exact next (.keep rfl rfl)
  · exact exec _ s
  · rcases writeRegister_cases (offset / 4) w s with e | e | e | e <;> rw [e] <;> exact next (.keep rfl rfl)

/-- Every turn other than a hardware reset appends at most one record. -/
theorem turnWork {τ : Turn} (hτ : τ ≠ .hardReset) (s : State) : OutcomeLogs s (turnWork τ s).outcome := by
  cases τ with
  | engine => exact engineWork s
  | hardReset => exact absurd rfl hτ
  | regWrite offset size w => exact registerWriteWork offset size w s
  | regRead offset size =>
    refine next ?_
    rcases readRegister_cases offset size s with ⟨why, e⟩ | ⟨v, e⟩ <;> rw [e] <;> exact .keep rfl rfl
  | inWrite a b =>
    refine next ?_
    rcases writeIn_cases a b s with ⟨why, e⟩ | ⟨_, _, _, _, e⟩ <;> rw [e] <;> exact .keep rfl rfl
  | outRead a =>
    refine next ?_
    rcases readOut_cases a s with ⟨_, e⟩ | ⟨_, _, _, e⟩ | ⟨_, _, e⟩ <;> rw [e] <;> exact .keep rfl rfl
  | outWrite a b =>
    refine next ?_
    obtain ⟨why, e⟩ := writeOut_eq a b s
    rw [e]
    exact .keep rfl rfl

end OutcomeLogs

/-- Settles O55: every turn's outcome is a log step, but for a hardware reset, which keeps the parameters. -/
theorem eventLogOnlyGrows : Obligations.EventLogOnlyGrows := by
  intro s t hstep
  rw [step_eq_turnWork] at hstep
  by_cases hreset : nextTurn s = .hardReset
  · rw [hreset] at hstep
    cases hstep
    exact ⟨rfl, fun h => absurd hreset h⟩
  · obtain ⟨hcfg, hlog⟩ := OutcomeLogs.turnWork hreset _ t hstep
    exact ⟨hcfg, fun _ => hlog⟩

end Sys2Proof.Machine

namespace Sys2Proof.Machine

/-! ## The registers (10 R22-R24; 44 R311; 70 R392) -/

/-- An append of bit vectors puts the left one above the right one. -/
theorem toNat_append_eq {m n : Nat} (x : BitVec m) (y : BitVec n) : (x ++ y).toNat = 2 ^ n * x.toNat + y.toNat := by
  rw [BitVec.toNat_append, ← Nat.shiftLeft_add_eq_or_of_lt y.isLt, Nat.shiftLeft_eq, Nat.mul_comm]

/-- The STATUS word field by field (10 R23). -/
theorem statusWord_toNat (s : State) : (statusWord s).toNat =
    s.state.code.toNat + 8 * s.taint.toNat + 16 * s.bfinal.toNat + 32 * s.btype.toNat + 128 * (evt s).toNat +
      256 * s.dstate.code.toNat := by
  simp only [statusWord, toNat_append_eq, BitVec.toNat_ofBool, BitVec.toNat_ofNat]
  omega

/-- The event line is raised exactly in WAITING, DONE and ERROR (60 R350). -/
theorem evt_eq_true_iff (s : State) : evt s = true ↔ s.state = .waiting ∨ s.state = .done ∨ s.state = .error := by
  unfold evt
  cases s.state <;> simp

/-- The METHOD register field by field (10 R22). -/
theorem methodWord_toNat (s : State) : (methodWord s).toNat = s.method.toNat + 256 * s.solid.toNat := by
  simp only [methodWord, toNat_append_eq, BitVec.toNat_ofBool, BitVec.toNat_ofNat]
  omega

/-- The high word of a 64-bit register (10 R22, PROG_TOTAL). -/
theorem extractLsb'_high_toNat (x : BitVec 64) : (x.extractLsb' 32 32).toNat = x.toNat / 2 ^ 32 := by
  have hx := x.isLt
  rw [BitVec.extractLsb'_toNat, Nat.shiftRight_eq_div_pow]
  omega

/-- HIST_BYTES counts the bytes of the whole history (10 R35). -/
theorem histBytes_eq (s : State) : histBytes s = s.hist.flatten.length := List.length_flatten.symm

/-- The cursor is its byte index above its bit index (10 R24). -/
theorem pos_toNat_eq (s : State) : s.pos.toNat = 8 * s.byteIndex.toNat + s.bitIndex.toNat := by
  have hpos := s.pos.isLt
  simp only [State.byteIndex, State.bitIndex, BitVec.extractLsb'_toNat, Nat.shiftRight_eq_div_pow]
  omega

/-- The map of R22 holds nothing at word index 21 and above. -/
theorem registerValue_of_ge (s : State) {k : Nat} (hk : 21 ≤ k) : registerValue s k = 0 := by
  obtain ⟨j, rfl⟩ := Nat.exists_eq_add_of_le' hk
  rfl

/-- A whole aligned word inside the register space is not refused (70 R392). -/
theorem registerForbidden_word {k : Nat} (hk : k < 64) : registerForbidden (4 * k) 4 = none := by
  simp only [registerForbidden]
  rw [if_neg (by omega), if_neg (by omega)]

/-- Every other access is (70 R392). -/
theorem registerForbidden_isSome {offset size : Nat} (h : size ≠ 4 ∨ offset % 4 ≠ 0 ∨ 256 ≤ offset) :
    ∃ why, registerForbidden offset size = some why := by
  unfold registerForbidden
  split
  · exact ⟨_, rfl⟩
  · rw [if_pos (by omega)]
    exact ⟨_, rfl⟩

/-- A turn in which the host reads a register by a whole word (44 R311). -/
theorem step_regRead_word {s : State} {k : Nat} {rest : List Turn} (h : s.sched = .regRead (4 * k) 4 :: rest)
    (hk : k < 64) : step s = .next { s with sched := rest, hostData := registerValue s k } := by
  rw [step_of_sched h]
  simp only [turnWork, readRegister, registerForbidden_word hk, Nat.mul_div_cancel_left k (Nat.zero_lt_succ 3)]
  rfl

/-- A turn in which the host writes a register other than CMD by a whole word (44 R311). -/
theorem step_regWrite_word {s : State} {k : Nat} {w : Word} {rest : List Turn}
    (h : s.sched = .regWrite (4 * k) 4 w :: rest) (hk1 : 1 ≤ k) (hk : k < 64) :
    step s = .next (writeRegister k w { s with sched := rest }) := by
  rw [step_of_sched h]
  simp only [turnWork, registerWriteWork, registerForbidden_word hk, Nat.mul_div_cancel_left k (Nat.zero_lt_succ 3)]
  rw [if_neg (by omega)]
  rfl

/-- A turn whose register access is refused (70 R392). -/
theorem step_register_refused {s : State} {offset size : Nat} {w : Word} {rest : List Turn} {why : Forbidden}
    (h : s.sched = .regWrite offset size w :: rest ∨ s.sched = .regRead offset size :: rest)
    (hwhy : registerForbidden offset size = some why) : step s = .next (refuseAccess why { s with sched := rest }) := by
  rcases h with h | h <;> rw [step_of_sched h]
  · simp only [turnWork, registerWriteWork, hwhy, Work.outcome_settled]
  · simp only [turnWork, readRegister, hwhy, Work.outcome_settled]

theorem writeRegister_ignored {k : Nat} (h5 : k ≠ 5) (h6 : k ≠ 6) (h7 : k ≠ 7) (w : Word) (s : State) :
    writeRegister k w s = s := by
  unfold writeRegister
  split
  · exact absurd rfl h5
  · exact absurd rfl h6
  · exact absurd rfl h7
  · rfl

/-- Settles O14: an engine turn outside RUN has nothing to do. -/
theorem engineIsIdleOutsideRun : Obligations.EngineIsIdleOutsideRun := by
  intro s hstate hturn
  rw [step_eq_turnWork, hturn, turnWork, engineWork_idle _ (by exact hstate), Work.outcome_settled]

/-- Settles O47, register by register: the value read is the model's register map, whose words are those of R22. -/
theorem registerReadsReturnTheMap : Obligations.RegisterReadsReturnTheMap := by
  intro s k rest hsched hk
  refine ⟨registerValue s k, step_regRead_word hsched hk, ?_⟩
  refine ⟨?_, ?_, ?_, ?_, ?_, ?_, ?_, ?_, ?_, ?_, ?_, ?_, ?_, ?_, ?_, ?_, ?_, ?_, ?_, ?_, ?_, registerValue_of_ge s⟩ <;>
    rintro rfl
  -- the words that are a field as it stands, and HIST_COUNT and the low word of PROG_TOTAL
  any_goals rfl
  · -- METHOD and SOLID
    exact methodWord_toNat s
  · -- the cursor
    exact ⟨rfl, pos_toNat_eq s⟩
  · -- PROG_TOTAL, its high word
    exact extractLsb'_high_toNat s.progTotal
  · -- HIST_BYTES, its low word
    rw [← histBytes_eq]
    rfl
  · -- HIST_BYTES, its high word
    rw [← histBytes_eq]
    rfl

/-- Settles O48: the fields of STATUS do not overlap; the codes are those of R27 and R28. -/
theorem statusWordFields : Obligations.StatusWordFields :=
  ⟨statusWord_toNat, evt_eq_true_iff, rfl, rfl, rfl⟩

/-- Settles O49: ARG0..ARG2 take the word, the other registers ignore it, and any other access is refused. -/
theorem registerWritesStoreArgumentsOnly : Obligations.RegisterWritesStoreArgumentsOnly := by
  refine ⟨fun s k w rest hsched hk1 hk => ?_, fun s offset size w rest hbad hsched => ?_⟩
  · rw [step_regWrite_word hsched hk1 hk]
    refine ⟨?_, ?_, ?_, fun h5 h6 h7 => ?_⟩
    · rintro rfl
      rfl
    · rintro rfl
      rfl
    · rintro rfl
      rfl
    · rw [writeRegister_ignored h5 h6 h7]
  · obtain ⟨why, hwhy⟩ := registerForbidden_isSome hbad
    exact ⟨_, step_register_refused hsched hwhy, refuseAccess_marks why _, rfl⟩

end Sys2Proof.Machine

/-! # Proofs about the memories (20_memory.md)

First what an instruction leaves to the host (the IN space and the model's own fields), rule by rule as the engine's
rules call each other, then the turns, then the statement. -/

namespace Sys2Proof.Machine

/-! ## The host's side of the state -/

/-- What no instruction writes: the parameters, the turns to come, the records of host reads and refusals, ARG0..ARG2
and the IN space with the reset number its unwritten bytes depend on (10 R38; 20 R61; log 1, log 3). -/
structure HostSide where
  cfg : Config
  sched : List Turn
  hostData : Word
  refusalMark : Option Forbidden
  freeReads : Nat
  epoch : Nat
  arg0 : Word
  arg1 : Word
  arg2 : Word
  inp : Memory

/-- The host's side of a state. -/
def hostSide (s : State) : HostSide :=
  { cfg := s.cfg, sched := s.sched, hostData := s.hostData, refusalMark := s.refusalMark, freeReads := s.freeReads
    epoch := s.epoch, arg0 := s.arg0, arg1 := s.arg1, arg2 := s.arg2, inp := s.inp }

/-- The IN bytes are on the host's side: written or not, they read the same (20 R61; log 3). -/
theorem inByte_of_hostSide {s t : State} (h : hostSide t = hostSide s) (a : Nat) : inByte t a = inByte s a := by
  have hinp : t.inp = s.inp := congrArg HostSide.inp h
  have hepoch : t.epoch = s.epoch := congrArg HostSide.epoch h
  rw [inByte, hinp, hepoch, inByte]

/-- What a rule answers from `s`, if it does not raise, has the host's side of `s`. -/
def RuleKeepsHost (s : State) (x : Except Raise State) : Prop := ∀ u, x = .ok u → hostSide u = hostSide s

namespace RuleKeepsHost

theorem ok {s u : State} (h : hostSide u = hostSide s) : RuleKeepsHost s (.ok u) := fun _ hu => by cases hu; exact h

theorem error (s : State) (r : Raise) : RuleKeepsHost s (.error r) := fun _ hu => by cases hu

theorem ite {s : State} {c : Prop} [Decidable c] {x y : Except Raise State} (hx : RuleKeepsHost s x)
    (hy : RuleKeepsHost s y) : RuleKeepsHost s (if c then x else y) := by
  split
  · exact hx
  · exact hy

/-- A rule that goes on from a state with the same host's side. -/
theorem trans {s u : State} {x : Except Raise State} (hx : RuleKeepsHost u x) (h : hostSide u = hostSide s) :
    RuleKeepsHost s x := fun v hv => (hx v hv).trans h

theorem sessionReset (dest : EState) (s : State) : RuleKeepsHost s (.ok (sessionReset dest s)) := .ok rfl

theorem illegalCommand (reason op : Nat) (s : State) : RuleKeepsHost s (illegalCommand reason op s) := error _ _

theorem latchBlock (f : Bool) (b : BitVec 2) (d : DState) (s : State) : RuleKeepsHost s (.ok (latchBlock f b d s)) :=
  .ok rfl

theorem loadFixed (s : State) : RuleKeepsHost s (.ok (loadFixed s)) := .ok rfl

theorem invalidLitlen (sym : Nat) (s : State) : RuleKeepsHost s (invalidLitlen sym s) := error _ _

theorem outAppend (b : Byte) (s : State) : RuleKeepsHost s (outAppend b s) := .ite (error _ _) (.ok rfl)

theorem outCopy (len dist : Nat) (s : State) : RuleKeepsHost s (outCopy len dist s) := by
  refine .ite (error _ _) (.ite (error _ _) (.ok ?_))
  rw [copyLoop_frame]
  rfl

theorem distanceField (d x : Nat) (s : State) : RuleKeepsHost s (distanceField d x s) :=
  .ite (error _ _) (outCopy _ _ s)

theorem matchField (sym e d x : Nat) (s : State) : RuleKeepsHost s (matchField sym e d x s) :=
  distanceField d x { s with mlen := BitVec.ofNat 9 (matchLength sym e) }

theorem finish (s : State) : RuleKeepsHost s (finish s) := .ite (error _ _) (.ok rfl)

theorem endOfBlock (s : State) : RuleKeepsHost s (endOfBlock s) := .ite (finish s) (.ok rfl)

theorem storedHeader (len nlen : BitVec 16) (s : State) : RuleKeepsHost s (storedHeader len nlen s) :=
  .ite (error _ _) (.ite (endOfBlock { s with storedRem := len }) (.ok rfl))

theorem storedByte (b : Byte) (s : State) : RuleKeepsHost s (storedByte b s) := by
  unfold Machine.storedByte
  cases happend : Machine.outAppend b s with
  | error r => exact error _ _
  | ok u =>
    refine trans (u := countStored u) ?_ (outAppend b s u happend)
    exact .ite (endOfBlock (countStored u)) (.ok rfl)

theorem finishIfFull (s : State) : RuleKeepsHost s (finishIfFull s) := .ite (finish s) (.ok rfl)

theorem rawByte (b : Byte) (s : State) : RuleKeepsHost s (rawByte b s) := by
  refine .ite ?_ (finishIfFull s)
  cases happend : Machine.outAppend b s with
  | error r => exact error _ _
  | ok u => exact (finishIfFull u).trans (outAppend b s u happend)

theorem dynamicCounts (l d c : Nat) (s : State) : RuleKeepsHost s (dynamicCounts l d c s) :=
  .ite (error _ _) (.ite (error _ _) (.ok rfl))

theorem buildCl (ls : List (BitVec 3)) (s : State) : RuleKeepsHost s (buildCl ls s) := by
  unfold Machine.buildCl
  cases huffBuild 0 (clLengths ls) Config.maxBitsCl s.pos.toNat with
  | error r => exact error _ _
  | ok cl => exact .ok rfl

theorem buildDynamic (s : State) : RuleKeepsHost s (buildDynamic s) := by
  rcases buildDynamic_cases s with ⟨_, e⟩ | ⟨_, _, e⟩ | ⟨_, _, _, e⟩ | ⟨_, _, _, e⟩ <;> rw [e]
  · exact error _ _
  · exact error _ _
  · exact error _ _
  · exact .ok rfl

theorem applyRun (v : BitVec 4) (r : Nat) (s : State) : RuleKeepsHost s (applyRun v r s) :=
  .ite (error _ _) (.ite (buildDynamic (writeRun v r s)) (.ok rfl))

theorem repeatPrevious (r : Nat) (s : State) : RuleKeepsHost s (repeatPrevious r s) :=
  .ite (error _ _) (applyRun _ _ s)

/-- START_ENTRY reads ARG0..ARG2 and writes none (44 R303, R304). -/
theorem startEntry (a0 cs us : Word) (s : State) : RuleKeepsHost s (startEntry a0 cs us s) := by
  rcases startEntry_cases a0 cs us s with ⟨c, x, e⟩ | ⟨_, _, _, _, _, _, e⟩ <;> rw [e]
  · exact error _ _
  · exact .ok rfl

/-- APPEND_INPUT delivers bytes that stand in IN already: it moves IN_RECV (44 R306). -/
theorem appendInput (k : Word) (s : State) : RuleKeepsHost s (appendInput k s) := by
  rcases appendInput_cases k s with ⟨x, e⟩ | ⟨_, _, ⟨_, e⟩ | ⟨_, e⟩⟩ <;> rw [e]
  · exact error _ _
  · exact .ok rfl
  · exact .ok rfl

end RuleKeepsHost

/-! ## Instructions -/

/-- Taking a raise writes the error or waiting record only (60 R341, R345). -/
theorem hostSide_takeRaise {r : Raise} {s t : State} (ht : takeRaise r s = .next t) : hostSide t = hostSide s := by
  rcases takeRaise_next r s t ht with ⟨c, a, x, rfl⟩ | ⟨q, a, rfl, _⟩
  · rfl
  · rfl

theorem hostSide_runElement {s t : State} {x : Except Raise State} (h : RuleKeepsHost s x)
    (ht : runElement s x = .next t) : hostSide t = hostSide s := by
  rcases runElement_next s t x ht with ⟨u, hx, rfl⟩ | ⟨r, _, hr⟩
  · exact h u hx
  · exact hostSide_takeRaise hr

theorem hostSide_runCommand {s t : State} {x : Except Raise State} (h : RuleKeepsHost s x)
    (ht : runCommand s x = .next t) : hostSide t = hostSide s := by
  rcases runCommand_next s t x ht with hx | ⟨r, _, hr⟩
  · exact h t hx
  · exact hostSide_takeRaise hr

/-- No instruction writes the host's side (20 R61). -/
theorem hostSide_exec {i : Instr} {s t : State} (ht : exec i s = .next t) : hostSide t = hostSide s := by
  cases hm : i.matchFields with
  | some f =>
    rw [exec_match (sym := f.1) (e := f.2.1) (d := f.2.2.1) (x := f.2.2.2) hm s] at ht
    exact hostSide_runElement (.matchField _ _ _ _ s) ht
  | none =>
    cases hd : i.distanceFields with
    | some f =>
      rw [exec_distance (d := f.1) (x := f.2) hd s] at ht
      exact hostSide_runElement (.distanceField _ _ s) ht
    | none =>
      cases i with
      | nop => exact hostSide_runCommand (.ok rfl) ht
      | openSession => exact hostSide_runCommand (.sessionReset _ s) ht
      | closeSession => exact hostSide_runCommand (.sessionReset _ s) ht
      | startEntry => exact hostSide_runCommand (.startEntry _ _ _ s) ht
      | appendInput => exact hostSide_runCommand (.appendInput _ s) ht
      | illegalOpcode op => exact hostSide_runCommand (.illegalCommand _ _ s) ht
      | blockStored f => exact hostSide_runElement (.latchBlock _ _ _ s) ht
      | blockFixed f => exact hostSide_runElement (.loadFixed (Machine.latchBlock f 1 .huffData s)) ht
      | blockDynamic f => exact hostSide_runElement (.latchBlock _ _ _ s) ht
      | blockReserved f => exact hostSide_runElement (.error s (.error .invalidBlockType s.pos.toNat 3)) ht
      | storedHdr len nlen => exact hostSide_runElement (.storedHeader _ _ s) ht
      | storedByte b => exact hostSide_runElement (.storedByte b s) ht
      | dynCounts l d c => exact hostSide_runElement (.dynamicCounts _ _ _ s) ht
      | dynCllen ls => exact hostSide_runElement (.buildCl ls s) ht
      | clLen n => exact hostSide_runElement (.applyRun _ _ s) ht
      | clRepeatPrev r => exact hostSide_runElement (.repeatPrevious _ s) ht
      | clRepeatZeroShort r => exact hostSide_runElement (.applyRun _ _ s) ht
      | clRepeatZeroLong r => exact hostSide_runElement (.applyRun _ _ s) ht
      | lit b => exact hostSide_runElement (.outAppend b s) ht
      | eob => exact hostSide_runElement (.endOfBlock s) ht
      | litlenInvalid286 => exact hostSide_runElement (.invalidLitlen _ s) ht
      | litlenInvalid287 => exact hostSide_runElement (.invalidLitlen _ s) ht
      | rawByte b => exact hostSide_runElement (.rawByte b s) ht
      | _ => simp [Instr.matchFields, Instr.distanceFields] at hm hd

/-! ## Turns -/

/-- The engine's turn runs an instruction, takes a raise or is idle (43 R241): it writes nothing of the host's side. -/
theorem hostSide_engineWork {s t : State} (ht : (engineWork s).outcome = .next t) : hostSide t = hostSide s := by
  by_cases hrun : s.state = .run
  · rcases engineWork_run s hrun with ⟨i, q, _, e⟩ | ⟨r, _, e⟩ <;> rw [e] at ht
    · exact hostSide_exec (s := { s with npos := BitVec.ofNat 32 q }) ht
    · exact hostSide_takeRaise ht
  · rw [engineWork_idle s hrun] at ht
    cases ht
    rfl

theorem inByte_registerWriteWork {offset size : Nat} {w : Word} {s t : State}
    (ht : (registerWriteWork offset size w s).outcome = .next t) (a : Nat) : inByte t a = inByte s a := by
  rcases registerWriteWork_cases offset size w s with ⟨why, _, e⟩ | ⟨_, _, e⟩ | ⟨_, _, e⟩ <;> rw [e] at ht
  · cases ht
    rfl
  · exact inByte_of_hostSide (hostSide_exec ht) a
  · cases ht
    rcases writeRegister_cases (offset / 4) w s with e | e | e | e <;> rw [e] <;> rfl

/-- A host write to IN below IN_RECV is refused, so a delivered byte stays (20 R61; 70 R390). -/
theorem inByte_writeIn_delivered (a c : Nat) (b : Byte) (s : State) (hc : c < s.inRecv.toNat) :
    inByte (writeIn a b s) c = inByte s c := by
  rcases writeIn_cases a b s with ⟨why, e⟩ | ⟨_, _, hrecv, _, e⟩ <;> rw [e]
  · rfl
  · rw [inByte_write, if_neg (by omega)]

/-- Every turn other than a hardware reset leaves the delivered bytes alone. -/
theorem inByte_turnWork_delivered {τ : Turn} (hτ : τ ≠ .hardReset) {s t : State}
    (ht : (turnWork τ s).outcome = .next t) (a : Nat) (ha : a < s.inRecv.toNat) : inByte t a = inByte s a := by
  cases τ with
  | engine => exact inByte_of_hostSide (hostSide_engineWork ht) a
  | hardReset => exact absurd rfl hτ
  | regWrite offset size w => exact inByte_registerWriteWork ht a
  | regRead offset size =>
    cases ht
    rcases readRegister_cases offset size s with ⟨why, e⟩ | ⟨v, e⟩ <;> rw [e] <;> rfl
  | inWrite c b =>
    cases ht
    exact inByte_writeIn_delivered c a b s ha
  | outRead c =>
    cases ht
    rcases readOut_cases c s with ⟨_, e⟩ | ⟨_, _, _, e⟩ | ⟨_, _, e⟩ <;> rw [e] <;> rfl
  | outWrite c b =>
    cases ht
    obtain ⟨why, e⟩ := writeOut_eq c b s
    rw [e]
    rfl

/-- Settles O53: IN is on the host's side, which instructions and engine turns leave alone, and a host write to IN goes
to IN_RECV or above. -/
theorem deliveredInputIsImmutable : Obligations.DeliveredInputIsImmutable := by
  refine ⟨fun i s t ht a => inByte_of_hostSide (hostSide_exec ht) a, fun s t hturn ht a => ?_, fun s t hturn ht a ha => ?_⟩
  · rw [step_eq_turnWork, hturn] at ht
    exact inByte_of_hostSide (hostSide_engineWork ht) a
  · rw [step_eq_turnWork] at ht
    exact inByte_turnWork_delivered hturn ht a ha

end Sys2Proof.Machine

/-! # Proofs about the encoding (30_encoding.md)

Command words first, then the streams that carry bits and the elements made of fixed-width fields, then the codes of a
Huffman table with the fixed codes, and last the elements that use them. -/

namespace Sys2Proof

open Machine

/-! ## Command words (30 R107, R108) -/

/-- The low byte of a CMD word as a number. -/
theorem lowByte_toNat (w : Word) : (w.extractLsb' 0 8).toNat = w.toNat % 256 := by simp

/-- A CMD word with one of the values 5 to 255 in its low byte is an illegal opcode (30 R108). -/
theorem decodeCommand_illegal {w : Word} (h : 5 ≤ w.toNat % 256) :
    decodeCommand w = .illegalOpcode (BitVec.ofNat 8 w.toNat) := by
  rw [decodeCommand, lowByte_toNat]
  split
  case h_6 =>
    congr 1
    exact BitVec.eq_of_toNat_eq (by simp)
  all_goals omega

/-- Settles O1: `decodeCommand` matches on the low byte. -/
theorem commandWordSelectsByLowByte : Obligations.CommandWordSelectsByLowByte := by
  intro w
  refine ⟨fun h => ?_, fun h => ?_, fun h => ?_, fun h => ?_, fun h => ?_, decodeCommand_illegal⟩ <;>
    simp only [decodeCommand, lowByte_toNat, h]

/-- Settles O3: the command rows are the words 0 to 4, and the opcode of an illegal one is its low byte. -/
theorem commandsRoundTrip : Obligations.CommandsRoundTrip := by
  intro c p i hwf hcommand
  cases i
  case nop => exact ⟨_, rfl, rfl⟩
  case openSession => exact ⟨_, rfl, rfl⟩
  case closeSession => exact ⟨_, rfl, rfl⟩
  case startEntry => exact ⟨_, rfl, rfl⟩
  case appendInput => exact ⟨_, rfl, rfl⟩
  case illegalOpcode op =>
    have hop : 5 ≤ op.toNat := of_decide_eq_true hwf
    have hword : (op.setWidth 32).toNat = op.toNat := by
      rw [BitVec.toNat_setWidth, Nat.mod_eq_of_lt (by omega)]
    refine ⟨_, rfl, ?_⟩
    rw [decodeCommand_illegal (by omega), hword, BitVec.ofNat_toNat, BitVec.setWidth_eq]
  all_goals contradiction

/-! ## Bits that stand in a stream (30 R91) -/

@[simp] theorem length_fieldBits (n v : Nat) : (fieldBits n v).length = n := by
  induction n generalizing v with
  | zero => rfl
  | succ n ih => simp [fieldBits, ih]

/-- Bit `k` of a field is bit `k` of its value. -/
theorem getD_fieldBits {n k : Nat} (v : Nat) (hk : k < n) : (fieldBits n v).getD k false = v.testBit k := by
  induction n generalizing v k with
  | zero => omega
  | succ n ih =>
    cases k with
    | zero => simp [fieldBits, Nat.testBit_zero, beq_eq_decide]
    | succ k =>
      rw [fieldBits, List.getD_cons_succ, ih (v / 2) (by omega), Nat.testBit_succ]

@[simp] theorem length_codeBits (n v : Nat) : (codeBits n v).length = n := by simp [codeBits]

/-- Bit `k` of a code is its bit `n - 1 - k`: the most significant bit stands first. -/
theorem getD_codeBits {n k : Nat} (v : Nat) (hk : k < n) : (codeBits n v).getD k false = v.testBit (n - 1 - k) := by
  rw [codeBits, List.getD_reverse _ (by simpa using hk), length_fieldBits]
  exact getD_fieldBits v (by omega)

section
variable {st : Stream} {p : Nat} {as bs : List Bool}

theorem delivers_cons {b : Bool} : Delivers st p (b :: bs) ↔ bitAt st p = b ∧ Delivers st (p + 1) bs := by
  simp only [Delivers, List.length_cons, Nat.forall_lt_succ_left, List.getD_cons_zero, List.getD_cons_succ,
    Nat.add_zero, Nat.add_assoc, Nat.add_comm 1]
  tauto

theorem delivers_append : Delivers st p (as ++ bs) ↔ Delivers st p as ∧ Delivers st (p + as.length) bs := by
  induction as generalizing p with
  | nil => simp [Delivers]; omega
  | cons a as ih =>
    rw [List.cons_append, delivers_cons, delivers_cons, ih, List.length_cons, Nat.add_assoc, Nat.add_comm 1, and_assoc]

theorem carries_append : Carries st p (as ++ bs) ↔ Carries st p as ∧ Carries st (p + as.length) bs := by
  simp only [Carries, delivers_append]
  tauto

/-- The padding ends at the next byte boundary (40 R146). -/
theorem add_length_padBits (p : Nat) : p + (padBits p).length = alignByte p := by
  obtain ⟨hle, _, _⟩ := alignByte_spec p
  rw [padBits, List.length_replicate, Nat.add_sub_cancel' hle]

/-- What stands after the padding stands at the next byte boundary (30 R93). -/
theorem Carries.afterPadding (h : Carries st p (padBits p ++ bs)) : Carries st (alignByte p) bs := by
  obtain ⟨_, h⟩ := carries_append.1 h
  rwa [add_length_padBits] at h

end

/-! ## Reading what stands there -/

theorem lsbValue_of_delivers {st : Stream} {n p v : Nat} (hv : v < 2 ^ n) (h : Delivers st p (fieldBits n v)) :
    lsbValue st n p = v := by
  induction n generalizing p v with
  | zero => simp_all [lsbValue]
  | succ n ih =>
    obtain ⟨hbit, hrest⟩ := delivers_cons.1 h
    rw [lsbValue, ih (by omega) hrest, hbit]
    rcases Nat.mod_two_eq_zero_or_one v with hv | hv <;> simp [hv] <;> omega

/-- A field is read back (40 R142, R145). -/
theorem readBits_of_carries {st : Stream} {n p v : Nat} (hn : n ≤ 16) (hv : v < 2 ^ n)
    (h : Carries st p (fieldBits n v)) : readBits st n p = .ok (v, p + n) := by
  obtain ⟨horder, hbits⟩ := h
  have hfits : p + n ≤ st.avail := by simpa using hbits.1
  rw [readBits_of_le st n p hn hfits, streamValue, horder, lsbValue_of_delivers hv hbits]

/-- The same with the value in a machine word. -/
theorem readBits_bitVec {st : Stream} {n p : Nat} (v : BitVec n) (hn : n ≤ 16)
    (h : Carries st p (fieldBits n v.toNat)) : readBits st n p = .ok (v.toNat, p + n) :=
  readBits_of_carries hn v.isLt h

/-- In LSB order the bits from a boundary on are those of the byte there (40 R141). -/
theorem bitAt_aligned {st : Stream} {q k : Nat} (ho : st.order = .lsb) (hq : q % 8 = 0) (hk : k < 8) :
    bitAt st (q + k) = (st.byteAt (q / 8)).getLsbD k := by
  simp only [bitAt, ho]
  rw [show (q + k) / 8 = q / 8 by omega, show (q + k) % 8 = k by omega]

/-- A byte after the padding is read back (40 R147). -/
theorem readOneByte_of_carries {st : Stream} {p : Nat} {b : Byte} (h : Carries st (alignByte p) (fieldBits 8 b.toNat)) :
    readOneByte st p = .ok (b, alignByte p + 8) := by
  obtain ⟨horder, hfits, hbits⟩ := h
  obtain ⟨_, _, haligned⟩ := alignByte_spec p
  have hbyte : st.byteAt (alignByte p / 8) = b := BitVec.eq_of_getLsbD_eq fun k hk => by
    rw [← bitAt_aligned horder haligned hk, hbits k (by simpa using hk), getD_fieldBits _ hk, BitVec.testBit_toNat]
  rw [length_fieldBits] at hfits
  rcases readOneByte_lsb st p horder with ⟨hshort, _⟩ | ⟨_, hread⟩
  · omega
  · rw [hread, hbyte]

/-- A monadic sequence whose first part answers goes on with its answer. -/
theorem except_ok_bind {α β : Type} (a : α) (f : α → Except Raise β) : (Except.ok a >>= f) = f a := rfl

/-! ## The elements of fixed-width fields (30 R92-R96, R110) -/

/-- A block header of any type is read back (43 R242). -/
theorem decodeBlockHeader_of_carries {st : Stream} {p : Nat} (f : Bool) (t : BitVec 2)
    (h : Carries st p (f :: fieldBits 2 t.toNat)) :
    decodeBlockHeader st p = .ok (blockHeader f t.toNat, p + 3) := by
  have hfield : f :: fieldBits 2 t.toNat = fieldBits 1 f.toNat ++ fieldBits 2 t.toNat := by cases f <;> rfl
  obtain ⟨hf, ht⟩ := carries_append.1 (hfield ▸ h)
  have hflag : (f.toNat == 1) = f := by cases f <;> rfl
  rw [decodeBlockHeader, readBits_of_carries (by omega) f.toNat_lt hf, except_ok_bind]
  rw [length_fieldBits] at ht
  simp only [readBits_bitVec t (by omega) ht, except_ok_bind, hflag]
  rfl

/-- A stored header that stands at the next boundary is read back (43 R244). -/
theorem decodeStoredHdr_of_carries {st : Stream} {p : Nat} (len nlen : BitVec 16)
    (h : Carries st (alignByte p) (fieldBits 16 len.toNat ++ fieldBits 16 nlen.toNat)) :
    decodeStoredHdr st p = .ok (.storedHdr len nlen, alignByte p + 32) := by
  obtain ⟨hlen, hnlen⟩ := carries_append.1 h
  rw [length_fieldBits] at hnlen
  simp only [decodeStoredHdr, readBits_bitVec len (by omega) hlen, except_ok_bind,
    readBits_bitVec nlen (by omega) hnlen, BitVec.ofNat_toNat, BitVec.setWidth_eq]
  rfl

/-- A stored byte that stands at the next boundary is read back (43 R245). -/
theorem decodeStoredByte_of_carries {st : Stream} {p : Nat} {b : Byte}
    (h : Carries st (alignByte p) (fieldBits 8 b.toNat)) :
    decodeStoredByte st p = .ok (.storedByte b, alignByte p + 8) := by
  rw [decodeStoredByte, readOneByte_of_carries h]
  rfl

/-- A raw byte that stands at the next boundary is read back while OUT_PTR has not reached USIZE (43 R260). -/
theorem decodeRawByte_of_carries {st : Stream} {p : Nat} {b : Byte}
    (h : Carries st (alignByte p) (fieldBits 8 b.toNat)) :
    decodeRawByte false st p = .ok (.rawByte b, alignByte p + 8) := by
  rw [decodeRawByte, readOneByte_of_carries h]
  rfl

/-- Dynamic counts are read back (43 R247). -/
theorem decodeDynCounts_of_carries {st : Stream} {p : Nat} (l d : BitVec 5) (n : BitVec 4)
    (h : Carries st p (fieldBits 5 l.toNat ++ fieldBits 5 d.toNat ++ fieldBits 4 n.toNat)) :
    decodeDynCounts st p = .ok (.dynCounts l d n, p + 14) := by
  obtain ⟨hld, hn⟩ := carries_append.1 h
  obtain ⟨hl, hd⟩ := carries_append.1 hld
  rw [length_fieldBits] at hd
  rw [List.length_append, length_fieldBits, length_fieldBits] at hn
  simp only [decodeDynCounts, readBits_bitVec l (by omega) hl, readBits_bitVec d (by omega) hd, except_ok_bind,
    readBits_bitVec n (by omega) hn, BitVec.ofNat_toNat, BitVec.setWidth_eq, Nat.add_assoc]
  rfl

/-- The code-length-code lengths are read back, one 3-bit field each (30 R96). -/
theorem readLengths_of_carries {st : Stream} {p : Nat} {ls : List (BitVec 3)}
    (h : Carries st p (ls.flatMap (fun l => fieldBits 3 l.toNat))) :
    readLengths st ls.length p = .ok (ls, p + 3 * ls.length) := by
  induction ls generalizing p with
  | nil => rfl
  | cons l ls ih =>
    obtain ⟨hl, hls⟩ := carries_append.1 (List.flatMap_cons ▸ h)
    rw [length_fieldBits] at hls
    simp only [List.length_cons, readLengths, readBits_bitVec l (by omega) hl, ih hls, except_ok_bind,
      BitVec.ofNat_toNat, BitVec.setWidth_eq, Nat.mul_add, Nat.add_assoc, Nat.add_comm 3]
    rfl

/-- The element with those lengths is read back (43 R248). -/
theorem decodeDynCllen_of_carries {st : Stream} {p : Nat} {ls : List (BitVec 3)}
    (h : Carries st p (ls.flatMap (fun l => fieldBits 3 l.toNat))) :
    decodeDynCllen ls.length st p = .ok (.dynCllen ls, p + 3 * ls.length) := by
  rw [decodeDynCllen, readLengths_of_carries h]
  rfl

/-! ## What stands before the boundary is skipped (40 R146, R147; 93 U21) -/

theorem alignByte_eq_of_boundary {p q : Nat} (hpq : p ≤ q) (hqp : q < p + 8) (hq : q % 8 = 0) : alignByte p = q := by
  obtain ⟨_, _, _⟩ := alignByte_spec p
  omega

/-- A stored header is read from the boundary on. -/
theorem decodeStoredHdr_alignByte (st : Stream) (p : Nat) :
    decodeStoredHdr st (alignByte p) = decodeStoredHdr st p := by
  obtain ⟨_, _, haligned⟩ := alignByte_spec p
  rw [decodeStoredHdr, decodeStoredHdr, alignByte_of_aligned haligned]

/-- Two streams in LSB order that have the same bits delivered, and the same bits from `q` on. -/
structure AgreeFrom (q : Nat) (st st' : Stream) : Prop where
  order : st.order = .lsb
  order' : st'.order = .lsb
  recv : st'.recv = st.recv
  bits : ∀ k, q ≤ k → bitAt st' k = bitAt st k

namespace AgreeFrom

variable {q : Nat} {st st' : Stream}

theorem lsbValue (h : AgreeFrom q st st') (n : Nat) {p : Nat} (hp : q ≤ p) : lsbValue st' n p = lsbValue st n p := by
  induction n generalizing p with
  | zero => rfl
  | succ n ih => rw [Machine.lsbValue, Machine.lsbValue, h.bits p hp, ih (by omega)]

theorem readBits (h : AgreeFrom q st st') (n : Nat) {p : Nat} (hp : q ≤ p) : readBits st' n p = readBits st n p := by
  simp only [Machine.readBits, peekBits, streamValue, Stream.avail, h.order, h.order', h.recv, h.lsbValue n hp]

theorem byteAt (h : AgreeFrom q st st') {a : Nat} (hq : q % 8 = 0) (ha : q ≤ 8 * a) : st'.byteAt a = st.byteAt a := by
  refine BitVec.eq_of_getLsbD_eq fun k hk => ?_
  have hbit := h.bits (8 * a + k) (by omega)
  rwa [bitAt_aligned h.order (by omega) hk, bitAt_aligned h.order' (by omega) hk, Nat.mul_div_cancel_left a (by omega)]
    at hbit

theorem readOneByte (h : AgreeFrom q st st') {p : Nat} (hp : alignByte p = q) :
    readOneByte st' p = readOneByte st p := by
  obtain ⟨_, _, haligned⟩ := alignByte_spec p
  have hbyte : st'.byteAt (alignByte p / 8) = st.byteAt (alignByte p / 8) := h.byteAt (hp ▸ haligned) (by omega)
  have hrecv : st'.avail = st.avail := by rw [Stream.avail, Stream.avail, h.recv]
  rcases readOneByte_lsb st p h.order with ⟨hs, e⟩ | ⟨hs, e⟩ <;>
    rcases readOneByte_lsb st' p h.order' with ⟨hs', e'⟩ | ⟨hs', e'⟩
  · rw [e, e']
  · omega
  · omega
  · rw [e, e', hbyte]

theorem decodeStoredHdr (h : AgreeFrom q st st') {p : Nat} (hp : alignByte p = q) :
    decodeStoredHdr st' p = decodeStoredHdr st p := by
  rw [Sys2Proof.decodeStoredHdr, Sys2Proof.decodeStoredHdr, h.readBits 16 hp.ge]
  cases hlen : Machine.readBits st 16 (alignByte p) with
  | error r => rfl
  | ok lenq =>
    obtain ⟨len, r⟩ := lenq
    obtain ⟨_, hr, _, _⟩ := readBits_ok hlen
    simp only [except_ok_bind, h.readBits 16 (show q ≤ r by omega)]

theorem decodeStoredByte (h : AgreeFrom q st st') {p : Nat} (hp : alignByte p = q) :
    decodeStoredByte st' p = decodeStoredByte st p := by
  rw [Sys2Proof.decodeStoredByte, Sys2Proof.decodeStoredByte, h.readOneByte hp]

theorem decodeRawByte (h : AgreeFrom q st st') {p : Nat} (hp : alignByte p = q) (full : Bool) :
    decodeRawByte full st' p = decodeRawByte full st p := by
  rw [Sys2Proof.decodeRawByte, Sys2Proof.decodeRawByte, h.readOneByte hp]

end AgreeFrom

theorem decodeElement_blockHeader {c : DecodeCtx} {start p : Nat} {st : Stream} (hd : c.dstate = .blkHdr) (f : Bool)
    (t : BitVec 2) (h : Carries st p (f :: fieldBits 2 t.toNat)) :
    decodeElement c start st p = .ok (blockHeader f t.toNat, p + 3) := by
  rw [decodeElement, hd]
  exact decodeBlockHeader_of_carries f t h

/-- The elements of fixed-width fields are read back, row by row. -/
theorem decodeElement_fixedFields {c : DecodeCtx} {start p : Nat} {st : Stream} {i : Instr} {bs : List Bool}
    (hlens : c.dstate ≠ .dynLens) (hdata : c.dstate ≠ .huffData) (hfits : i.fits c) (henc : encode c p i = .bits bs)
    (h : Carries st p bs) : decodeElement c start st p = .ok (i, p + bs.length) := by
  cases i
  case blockStored f =>
    cases henc
    exact decodeElement_blockHeader hfits f 0 h
  case blockFixed f =>
    cases henc
    exact decodeElement_blockHeader hfits f 1 h
  case blockDynamic f =>
    cases henc
    exact decodeElement_blockHeader hfits f 2 h
  case blockReserved f =>
    cases henc
    exact decodeElement_blockHeader hfits f 3 h
  case storedHdr len nlen =>
    cases henc
    rw [List.append_assoc] at h ⊢
    rw [decodeElement, show c.dstate = .storedHdr from hfits, List.length_append, ← Nat.add_assoc, add_length_padBits]
    exact decodeStoredHdr_of_carries len nlen h.afterPadding
  case storedByte b =>
    cases henc
    rw [decodeElement, show c.dstate = .storedData from hfits, List.length_append, ← Nat.add_assoc, add_length_padBits]
    exact decodeStoredByte_of_carries h.afterPadding
  case dynCounts l d n =>
    cases henc
    rw [decodeElement, show c.dstate = .dynCounts from hfits]
    exact decodeDynCounts_of_carries l d n h
  case dynCllen ls =>
    obtain ⟨hd, hlen⟩ := hfits
    cases henc
    have hbits : (ls.flatMap (fun l => fieldBits 3 l.toNat)).length = 3 * ls.length := by
      simp [List.length_flatMap, Nat.mul_comm]
    rw [decodeElement, hd, hbits, ← hlen]
    exact decodeDynCllen_of_carries h
  case rawByte b =>
    obtain ⟨hd, hzero⟩ := hfits
    cases henc
    rw [decodeElement, hd]
    cases hfull : c.outFull with
    | true =>
      rw [hzero hfull]
      simp [decodeRawByte]
    | false =>
      simp only [hfull, Bool.false_eq_true, if_false] at h ⊢
      rw [List.length_append, ← Nat.add_assoc, add_length_padBits]
      exact decodeRawByte_of_carries h.afterPadding
  all_goals simp [Instr.fits, hlens, hdata] at hfits

/-- Settles O4: (1) element by element; (2) and (3) because the three elements read from the next boundary on. -/
theorem fixedFieldElementsRoundTrip : Obligations.FixedFieldElementsRoundTrip := by
  refine ⟨fun c start p st i bs _ hfits hlens hdata henc hbits => ?_, fun c start p q st hpq hqp hq => ?_,
    fun c start p q st st' hpq hqp hq hd ho ho' hrecv hagree => ?_⟩
  · exact decodeElement_fixedFields hlens hdata hfits henc hbits
  · obtain rfl := alignByte_eq_of_boundary hpq hqp hq
    refine ⟨fun len nlen hd h => ?_, fun b h => ⟨fun hd => ?_, fun hd hfull => ?_⟩⟩
    · rw [decodeElement, hd]
      exact decodeStoredHdr_of_carries len nlen h
    · rw [decodeElement, hd]
      exact decodeStoredByte_of_carries h
    · rw [decodeElement, hd, hfull]
      exact decodeRawByte_of_carries h
  · have halign := alignByte_eq_of_boundary hpq hqp hq
    have h : AgreeFrom q st st' := ⟨ho, ho', hrecv, hagree⟩
    refine ⟨?_, by rw [← halign, decodeStoredHdr_alignByte]⟩
    unfold decodeElement
    rcases hd with hd | hd | hd <;> rw [hd]
    · exact h.decodeStoredHdr halign
    · exact h.decodeStoredByte halign
    · exact h.decodeRawByte halign c.outFull

end Sys2Proof

namespace Sys2Proof.Machine

/-! ## Length sets a table can be built from (41 R170-R173) -/

/-- The length sets HuffBuild makes a table of: no longer than an alphabet, lengths up to a limit of at most 15, and no
over-subscription (41 R170, R173). -/
structure Buildable (lens : List Nat) (maxLimit : Nat) : Prop where
  alphabet : lens.length ≤ 288
  limit : maxLimit ≤ 15
  lengths : ∀ l ∈ lens, l ≤ maxLimit
  legal : overSubscribed lens maxLimit = false

theorem lengthCount_succ (lens : List Nat) (l : Nat) : lengthCount lens (l + 1) = lens.count (l + 1) := by
  simp [lengthCount]

theorem lengthCount_le (lens : List Nat) (l : Nat) : lengthCount lens l ≤ lens.length := by
  unfold lengthCount
  split
  · exact Nat.zero_le _
  · exact List.count_le_length

/-- The symbols with a length from `l` on are those of length `l` and the longer ones. -/
theorem countP_le_eq_count_add (lens : List Nat) (l : Nat) :
    lens.countP (l ≤ ·) = lens.count l + lens.countP (l + 1 ≤ ·) := by
  induction lens with
  | nil => rfl
  | cons a lens ih =>
    simp only [List.countP_cons, List.count_cons, beq_iff_eq, decide_eq_true_eq]
    split_ifs <;> omega

/-- The symbols with a code shorter than `l` and those with a length from `l` on are different symbols. -/
theorem firstIndexOf_add_countP_le (lens : List Nat) (l : Nat) :
    firstIndexOf lens l + lens.countP (l ≤ ·) ≤ lens.length := by
  induction l with
  | zero => simp [firstIndexOf]
  | succ l ih =>
    rw [countP_le_eq_count_add] at ih
    have hcount : lengthCount lens l ≤ lens.count l := by unfold lengthCount; split <;> omega
    rw [firstIndexOf]
    omega

theorem firstIndexOf_le (lens : List Nat) (l : Nat) : firstIndexOf lens l ≤ lens.length :=
  le_of_add_le_left (firstIndexOf_add_countP_le lens l)

/-- The `left` loop of 41 R172 checks, length by length, that the codes of a length end inside its code space. -/
theorem codesEnd_le_of_leftNeverNegative {lens : List Nat} {k l : Nat}
    (hl : firstCodeOf lens l + lengthCount lens l ≤ 2 ^ l)
    (h : leftNeverNegative lens k (l + 1) (2 ^ l - (firstCodeOf lens l + lengthCount lens l)) = true) {n : Nat}
    (hln : l ≤ n) (hnk : n ≤ l + k) : firstCodeOf lens n + lengthCount lens n ≤ 2 ^ n := by
  induction k generalizing l with
  | zero => rwa [show n = l by omega]
  | succ k ih =>
    rw [leftNeverNegative] at h
    split at h
    · contradiction
    · have hfirst : firstCodeOf lens (l + 1) = 2 * (firstCodeOf lens l + lengthCount lens l) := rfl
      rcases Nat.eq_or_lt_of_le hln with rfl | hlt
      · exact hl
      · refine ih (l := l + 1) (by omega) ?_ hlt (by omega)
        rwa [show 2 ^ (l + 1) - (firstCodeOf lens (l + 1) + lengthCount lens (l + 1)) =
          2 * (2 ^ l - (firstCodeOf lens l + lengthCount lens l)) - lengthCount lens (l + 1) by omega]

theorem Buildable.codesEnd_le {lens : List Nat} {m n : Nat} (h : Buildable lens m) (hn : n ≤ m) :
    firstCodeOf lens n + lengthCount lens n ≤ 2 ^ n := by
  have hloop : leftNeverNegative lens m 1 1 = true := by simpa [overSubscribed] using h.legal
  exact codesEnd_le_of_leftNeverNegative (l := 0) (k := m) (by simp [firstCodeOf, lengthCount]) hloop
    (Nat.zero_le n) (by omega)

/-- The codes of a longer length start after every extension of the codes of a shorter one (41 R180). -/
theorem codesEnd_mul_le_firstCodeOf (lens : List Nat) (l d : Nat) :
    (firstCodeOf lens l + lengthCount lens l) * 2 ^ (d + 1) ≤ firstCodeOf lens (l + d + 1) := by
  induction d with
  | zero => simp only [firstCodeOf]; omega
  | succ d ih =>
    rw [Nat.pow_succ, ← Nat.mul_assoc, show l + (d + 1) + 1 = (l + d + 1) + 1 by omega, firstCodeOf]
    omega

/-! ## The order of the symbols (41 R175) -/

/-- How many smaller symbols have the length of `s`. -/
def symbolRank (lens : List Nat) (s : Nat) : Nat :=
  ((List.range s).filter (fun r => lens.getD r 0 == lens.getD s 0)).length

/-- Counting the symbols below `s` of length `l` is counting `l` among the first `s` lengths. -/
theorem length_filter_range_getD (lens : List Nat) (l : Nat) {s : Nat} (hs : s ≤ lens.length) :
    ((List.range s).filter (fun r => lens.getD r 0 == l)).length = (lens.take s).count l := by
  induction s with
  | zero => rfl
  | succ s ih =>
    rw [List.range_succ, List.filter_append, List.length_append, ih (by omega), List.take_add_one,
      List.getElem?_eq_getElem (by omega), List.count_append]
    congr 1
    have hget : lens.getD s 0 = lens[s] := List.getD_eq_getElem _ _ (by omega)
    rw [List.filter_singleton, hget]
    by_cases h : lens[s] = l <;> simp [h, cond_eq_ite]

theorem symbolRank_eq_count {lens : List Nat} {s : Nat} (hs : s ≤ lens.length) :
    symbolRank lens s = (lens.take s).count (lens.getD s 0) :=
  length_filter_range_getD lens _ hs

theorem length_symbolsOfLength (lens : List Nat) (l : Nat) : (symbolsOfLength lens l).length = lens.count l := by
  rw [symbolsOfLength, length_filter_range_getD lens l le_rfl, List.take_length]

/-- Among the symbols of its length, a symbol stands at its rank. -/
theorem symbolsOfLength_rank {lens : List Nat} {s : Nat} (hs : s < lens.length) :
    (symbolsOfLength lens (lens.getD s 0))[symbolRank lens s]? = some s := by
  obtain ⟨k, hk⟩ := Nat.exists_eq_add_of_lt hs
  have hrange : List.range lens.length = List.range s ++ s :: (List.range k).map (s + 1 + ·) := by
    rw [hk, Nat.add_right_comm, List.range_add, List.range_succ, List.append_assoc, List.singleton_append]
  rw [symbolsOfLength, hrange, List.filter_append, List.filter_cons_of_pos (by simp),
    List.getElem?_append_right (by rw [symbolRank])]
  simp [symbolRank]

theorem symbolRank_lt {lens : List Nat} {s : Nat} (hs : s < lens.length) (hcode : lens.getD s 0 ≠ 0) :
    symbolRank lens s < lengthCount lens (lens.getD s 0) := by
  rw [lengthCount, if_neg hcode, ← length_symbolsOfLength]
  exact (List.getElem?_eq_some_iff.1 (symbolsOfLength_rank hs)).1

theorem symbolOrder_succ (lens : List Nat) (l : Nat) :
    symbolOrder lens (l + 1) = symbolOrder lens l ++ symbolsOfLength lens (l + 1) := by
  simp [symbolOrder, List.range_succ]

theorem length_symbolOrder (lens : List Nat) (l : Nat) : (symbolOrder lens l).length = firstIndexOf lens (l + 1) := by
  induction l with
  | zero => simp [symbolOrder, firstIndexOf, lengthCount]
  | succ l ih =>
    rw [symbolOrder_succ, List.length_append, ih, length_symbolsOfLength, ← lengthCount_succ]
    rfl

theorem symbolOrder_prefix (lens : List Nat) {l m : Nat} (h : l ≤ m) : symbolOrder lens l <+: symbolOrder lens m := by
  induction m, h using Nat.le_induction with
  | base => exact List.prefix_rfl
  | succ m _ ih => exact ih.trans (symbolOrder_succ lens m ▸ List.prefix_append ..)

/-- In the order of all symbols, a symbol stands at the first index of its length plus its rank (41 R175). -/
theorem symbolOrder_firstIndexOf_add_rank {lens : List Nat} {s m : Nat} (hs : s < lens.length)
    (hcode : lens.getD s 0 ≠ 0) (hm : lens.getD s 0 ≤ m) :
    (symbolOrder lens m)[firstIndexOf lens (lens.getD s 0) + symbolRank lens s]? = some s := by
  obtain ⟨l, hl⟩ := Nat.exists_eq_succ_of_ne_zero hcode
  have hat : (symbolOrder lens (l + 1))[firstIndexOf lens (l + 1) + symbolRank lens s]? = some s := by
    rw [symbolOrder_succ, ← length_symbolOrder, List.getElem?_append_right (Nat.le_add_right ..),
      Nat.add_sub_cancel_left, ← Nat.succ_eq_add_one, ← hl, symbolsOfLength_rank hs]
  rw [hl] at hm ⊢
  obtain ⟨rest, hrest⟩ := symbolOrder_prefix lens hm
  rw [← hrest]
  exact List.getElem?_append_left (List.getElem?_eq_some_iff.1 hat).1 ▸ hat

/-! ## The longest length -/

theorem longestLength_le_iff {lens : List Nat} {m : Nat} : longestLength lens ≤ m ↔ ∀ l ∈ lens, l ≤ m := by
  suffices h : ∀ a, lens.foldl max a ≤ m ↔ a ≤ m ∧ ∀ l ∈ lens, l ≤ m by simpa [longestLength] using h 0
  intro a
  induction lens generalizing a with
  | nil => simp
  | cons b lens ih => simp [ih, and_assoc]

theorem le_longestLength {lens : List Nat} {l : Nat} (h : l ∈ lens) : l ≤ longestLength lens :=
  longestLength_le_iff.1 le_rfl l h

/-! ## The fields of a table that was built (41 R172) -/

theorem getD_mem_of_lt {lens : List Nat} {s : Nat} (hs : s < lens.length) : lens.getD s 0 ∈ lens := by
  rw [List.getD_eq_getElem _ _ hs]
  exact List.getElem_mem hs

namespace Buildable

variable {lens : List Nat} {m l s : Nat}

theorem getD_le (h : Buildable lens m) (s : Nat) : lens.getD s 0 ≤ m := by
  by_cases hs : s < lens.length
  · exact h.lengths _ (getD_mem_of_lt hs)
  · rw [List.getD_eq_default _ _ (Nat.not_lt.1 hs)]
    exact Nat.zero_le m

theorem lenAt_eq (h : Buildable lens m) (s : Nat) : (tableOf lens m).lenAt s = lens.getD s 0 := by
  have hle := h.getD_le s
  have hlimit := h.limit
  have hmap : (lens.map (BitVec.ofNat 4)).getD s 0 = BitVec.ofNat 4 (lens.getD s 0) := List.getD_map ..
  rw [HuffTable.lenAt, tableOf, hmap, BitVec.toNat_ofNat, Nat.mod_eq_of_lt (by omega)]

theorem maxLen_eq (h : Buildable lens m) : (tableOf lens m).maxLen.toNat = longestLength lens := by
  have hle : longestLength lens ≤ m := longestLength_le_iff.2 h.lengths
  have hlimit := h.limit
  rw [tableOf, BitVec.toNat_ofNat, Nat.mod_eq_of_lt (by omega)]

theorem countAt_eq (h : Buildable lens m) (hl : l ≤ 15) : (tableOf lens m).countAt l = lengthCount lens l := by
  have hle := lengthCount_le lens l
  have halpha := h.alphabet
  rw [HuffTable.countAt, tableOf, List.getD_eq_getElem _ _ (by simp; omega)]
  simp
  omega

theorem firstCodeAt_eq (h : Buildable lens m) (h1 : 1 ≤ l) (hl : l ≤ m) :
    (tableOf lens m).firstCodeAt l = firstCodeOf lens l := by
  have hlimit := h.limit
  have hspace : 2 ^ l ≤ 2 ^ 15 := Nat.pow_le_pow_right (by omega) (by omega)
  have hle := h.codesEnd_le hl
  rw [HuffTable.firstCodeAt, tableOf, List.getD_eq_getElem _ _ (by simp; omega)]
  simp [upTo, Nat.sub_add_cancel h1, show l - 1 < m by omega]
  omega

theorem firstIndexAt_eq (h : Buildable lens m) (h1 : 1 ≤ l) (hl : l ≤ m) :
    (tableOf lens m).firstIndexAt l = firstIndexOf lens l := by
  have hlimit := h.limit
  have halpha := h.alphabet
  have hle := firstIndexOf_le lens l
  rw [HuffTable.firstIndexAt, tableOf, List.getD_eq_getElem _ _ (by simp; omega)]
  simp [upTo, Nat.sub_add_cancel h1, show l - 1 < m by omega]
  omega

/-- The `sym` entries are the symbols in their order (41 R175). -/
theorem symAt_eq (h : Buildable lens m) {i : Nat} (hi : (symbolOrder lens m)[i]? = some s) :
    (tableOf lens m).symAt i = s := by
  have halpha := h.alphabet
  obtain ⟨hilt, hget⟩ := List.getElem?_eq_some_iff.1 hi
  have hs : s < lens.length := symbolOrder_lt lens m s (List.mem_of_getElem? hi)
  have hlen : (symbolOrder lens m).length ≤ lens.length := length_symbolOrder lens m ▸ firstIndexOf_le ..
  rw [HuffTable.symAt, tableOf, List.getD_eq_getElem?_getD, List.getElem?_take_of_lt (by omega),
    List.getElem?_append_left (by simpa using hilt), List.getElem?_map, hi]
  simp
  omega

/-- The code of a symbol is the first code of its length plus its rank (41 R175). -/
theorem codeOf_eq (h : Buildable lens m) (hcode : lens.getD s 0 ≠ 0) :
    codeOf (tableOf lens m) s = firstCodeOf lens (lens.getD s 0) + symbolRank lens s := by
  simp only [codeOf, h.lenAt_eq]
  rw [h.firstCodeAt_eq (by omega) (h.getD_le s), symbolRank]

theorem codeOf_lt (h : Buildable lens m) (hs : s < lens.length) (hcode : lens.getD s 0 ≠ 0) :
    codeOf (tableOf lens m) s < 2 ^ lens.getD s 0 := by
  have hrank := symbolRank_lt hs hcode
  have hend := h.codesEnd_le (h.getD_le s)
  rw [h.codeOf_eq hcode]
  omega

/-- The code of a symbol is one of the codes of its length (41 R176). -/
theorem codeOf_mem (h : Buildable lens m) (hs : s < lens.length) (hcode : lens.getD s 0 ≠ 0) :
    (tableOf lens m).firstCodeAt (lens.getD s 0) ≤ codeOf (tableOf lens m) s ∧
      codeOf (tableOf lens m) s <
        (tableOf lens m).firstCodeAt (lens.getD s 0) + (tableOf lens m).countAt (lens.getD s 0) := by
  have hle := h.getD_le s
  have hlimit := h.limit
  have hrank := symbolRank_lt hs hcode
  rw [h.codeOf_eq hcode, h.firstCodeAt_eq (by omega) hle, h.countAt_eq (by omega)]
  omega

/-- No beginning of a symbol's code is a code: it lies past the codes of its own length (41 R180). -/
theorem codesEnd_le_prefix (h : Buildable lens m) (hcode : lens.getD s 0 ≠ 0) (h1 : 1 ≤ l) (hl : l < lens.getD s 0) :
    (tableOf lens m).firstCodeAt l + (tableOf lens m).countAt l ≤
      codeOf (tableOf lens m) s / 2 ^ (lens.getD s 0 - l) := by
  have hle := h.getD_le s
  have hlimit := h.limit
  rw [h.firstCodeAt_eq h1 (by omega), h.countAt_eq (by omega), h.codeOf_eq hcode,
    Nat.le_div_iff_mul_le (Nat.two_pow_pos _)]
  obtain ⟨d, hd⟩ := Nat.exists_eq_add_of_lt hl
  rw [hd, show l + d + 1 - l = d + 1 by omega]
  exact Nat.le_add_right_of_le (codesEnd_mul_le_firstCodeOf lens l d)

/-- The index a symbol's code selects holds the symbol (41 R175). -/
theorem symAt_codeOf (h : Buildable lens m) (hs : s < lens.length) (hcode : lens.getD s 0 ≠ 0) :
    (tableOf lens m).symAt ((tableOf lens m).firstIndexAt (lens.getD s 0) + codeOf (tableOf lens m) s -
      (tableOf lens m).firstCodeAt (lens.getD s 0)) = s := by
  have hle := h.getD_le s
  rw [h.codeOf_eq hcode, h.firstCodeAt_eq (by omega) hle, h.firstIndexAt_eq (by omega) hle, Nat.add_left_comm,
    Nat.add_sub_cancel_left]
  exact h.symAt_eq (symbolOrder_firstIndexOf_add_rank hs hcode hle)

end Buildable

/-! ## Decoding a code (41 R176, R180) -/

/-- The first `j + 1` bits of an `n`-bit code, read as a number: twice the first `j` bits, plus the next bit. -/
theorem prefix_succ {v n j : Nat} (hj : j < n) :
    2 * (v / 2 ^ (n - j)) + (v.testBit (n - 1 - j)).toNat = v / 2 ^ (n - (j + 1)) := by
  rw [show n - j = n - (j + 1) + 1 by omega, show n - 1 - j = n - (j + 1) by omega, Nat.toNat_testBit, Nat.pow_succ,
    ← Nat.div_div_eq_div_mul, Nat.div_add_mod]

/-- HuffDecode's loop after `j` bits of an `n`-bit code `v`: if no beginning of the code is a code of its own length, the
loop reads on to the code's last bit. -/
theorem huffLoop_of_delivers {t : HuffTable} {st : Stream} {p n v : Nat} (hbits : Delivers st p (codeBits n v))
    (hshorter : ∀ l, 1 ≤ l → l < n → t.firstCodeAt l + t.countAt l ≤ v / 2 ^ (n - l))
    (hmatch : t.firstCodeAt n ≤ v ∧ v < t.firstCodeAt n + t.countAt n) (start : Nat) {j k : Nat} (hj : j < n)
    (hk : n ≤ j + k) :
    huffLoop t st start k (j + 1) (v / 2 ^ (n - j)) (p + j) =
      .ok (t.symAt (t.firstIndexAt n + v - t.firstCodeAt n), p + n) := by
  obtain ⟨hfits, hat⟩ := hbits
  simp only [length_codeBits] at hfits hat
  induction k generalizing j with
  | zero => omega
  | succ k ih =>
    have hbit : streamValue st 1 (p + j) = (v.testBit (n - 1 - j)).toNat := by
      rw [← getD_codeBits v hj, ← hat j hj]
      cases ho : st.order <;> simp [streamValue, ho, lsbValue, msbValue]
    simp only [huffLoop, readBit, readBits_of_le st 1 (p + j) (by omega) (by omega), hbit, prefix_succ hj]
    rcases Nat.eq_or_lt_of_le (Nat.succ_le_of_lt hj) with rfl | hlt
    · rw [Nat.sub_self, Nat.pow_zero, Nat.div_one, if_pos hmatch, Nat.add_assoc]
    · have hno := hshorter (j + 1) (by omega) hlt
      rw [if_neg (by omega), Nat.add_assoc]
      exact ih hlt (by omega)

/-- HuffDecode reads the code of a symbol and answers the symbol (41 R176, R180). -/
theorem huffDecode_of_delivers {lens : List Nat} {m s p : Nat} {st : Stream} (h : Buildable lens m)
    (hs : s < lens.length) (hcode : lens.getD s 0 ≠ 0) (hbits : Delivers st p (symbolBits (tableOf lens m) s)) :
    huffDecode (tableOf lens m) st p = .ok (s, p + lens.getD s 0) := by
  have hlong : lens.getD s 0 ≤ longestLength lens := le_longestLength (getD_mem_of_lt hs)
  rw [symbolBits, h.lenAt_eq] at hbits
  have hloop := huffLoop_of_delivers hbits (fun _ => h.codesEnd_le_prefix hcode) (h.codeOf_mem hs hcode) p (j := 0)
    (k := longestLength lens) (Nat.pos_of_ne_zero hcode) (by omega)
  rw [Nat.sub_zero, Nat.div_eq_of_lt (h.codeOf_lt hs hcode), h.symAt_codeOf hs hcode] at hloop
  rw [huffDecode, if_pos (show (tableOf lens m).built = true from rfl), h.maxLen_eq]
  exact hloop

/-! ## The fixed codes (30 R102, R103) -/

theorem length_fixedLitLengths : fixedLitLengths.length = 288 := by
  simp only [fixedLitLengths, List.length_append, List.length_replicate]

theorem mem_fixedLitLengths {l : Nat} (h : l ∈ fixedLitLengths) : l = 8 ∨ l = 9 ∨ l = 7 := by
  simp only [fixedLitLengths, List.mem_append, List.mem_replicate] at h
  omega

theorem getD_fixedLitLengths {s : Nat} (hs : s < 288) :
    fixedLitLengths.getD s 0 = if s < 144 then 8 else if s < 256 then 9 else if s < 280 then 7 else 8 := by
  simp only [fixedLitLengths, List.getD_eq_getElem?_getD, List.getElem?_append, List.length_append,
    List.length_replicate, List.getElem?_replicate, Nat.reduceAdd]
  grind

/-- How many of the first `s` fixed literal/length symbols have each length (10 R33). -/
theorem count_take_fixedLitLengths (s l : Nat) :
    (fixedLitLengths.take s).count l = (if l = 8 then min s 144 + min (s - 280) 8 else 0) +
      (if l = 9 then min (s - 144) 112 else 0) + (if l = 7 then min (s - 256) 24 else 0) := by
  simp only [fixedLitLengths, List.take_append, List.take_replicate, List.count_append, List.count_replicate,
    List.length_append, List.length_replicate, beq_iff_eq, Nat.reduceAdd]
  split_ifs <;> omega

theorem lengthCount_fixedLitLengths (l : Nat) : lengthCount fixedLitLengths l =
    if l = 7 then 24 else if l = 8 then 152 else if l = 9 then 112 else 0 := by
  have hcount := count_take_fixedLitLengths 288 l
  rw [List.take_of_length_le length_fixedLitLengths.le] at hcount
  rw [lengthCount, hcount]
  split_ifs <;> omega

theorem buildable_fixedLitLengths : Buildable fixedLitLengths Config.maxBitsLitDist where
  alphabet := length_fixedLitLengths.le
  limit := le_rfl
  lengths := fun l h => by
    have hl := mem_fixedLitLengths h
    simp only [Config.maxBitsLitDist]
    omega
  legal := by simp [overSubscribed, Config.maxBitsLitDist, leftNeverNegative, lengthCount_fixedLitLengths]

theorem lengthCount_fixedDistLengths (l : Nat) : lengthCount fixedDistLengths l = if l = 5 then 32 else 0 := by
  rw [lengthCount, fixedDistLengths, List.count_replicate]
  simp only [beq_iff_eq]
  split_ifs <;> omega

theorem buildable_fixedDistLengths : Buildable fixedDistLengths Config.maxBitsLitDist where
  alphabet := by simp [fixedDistLengths]
  limit := le_rfl
  lengths := fun l h => by
    rw [List.eq_of_mem_replicate h]
    decide
  legal := by simp [overSubscribed, Config.maxBitsLitDist, leftNeverNegative, lengthCount_fixedDistLengths]

/-- The first code of each fixed literal/length code length (41 R185). -/
theorem firstCodeOf_fixedLitLengths :
    firstCodeOf fixedLitLengths 7 = 0 ∧ firstCodeOf fixedLitLengths 8 = 0x30 ∧
      firstCodeOf fixedLitLengths 9 = 0x190 := by
  simp [firstCodeOf, lengthCount_fixedLitLengths]

theorem firstCodeOf_fixedDistLengths : firstCodeOf fixedDistLengths 5 = 0 := by
  simp [firstCodeOf, lengthCount_fixedDistLengths]

/-- The code of a symbol of length `n`: the first code of the length plus the number of smaller symbols of it. -/
theorem Buildable.lenAt_and_codeOf {lens : List Nat} {m s n : Nat} (h : Buildable lens m) (hs : s < lens.length)
    (hn : lens.getD s 0 = n) (hcode : n ≠ 0) :
    (tableOf lens m).lenAt s = n ∧ codeOf (tableOf lens m) s = firstCodeOf lens n + (lens.take s).count n := by
  subst hn
  exact ⟨h.lenAt_eq s, by rw [h.codeOf_eq hcode, symbolRank_eq_count hs.le]⟩

/-- The fixed literal/length code `v` of a symbol, worked out from its length `n`. -/
theorem codeOf_tFixLit {s n v : Nat} (hs : s < 288) (hcode : n ≠ 0)
    (hn : (if s < 144 then 8 else if s < 256 then 9 else if s < 280 then 7 else 8) = n)
    (hv : firstCodeOf fixedLitLengths n + (fixedLitLengths.take s).count n = v) :
    tFixLit.lenAt s = n ∧ codeOf tFixLit s = v :=
  hv ▸ buildable_fixedLitLengths.lenAt_and_codeOf (length_fixedLitLengths.symm ▸ hs)
    ((getD_fixedLitLengths hs).trans hn) hcode

/-- The fixed distance codes are the symbols themselves, 5 bits wide (30 R103). -/
theorem codeOf_tFixDist {d : Nat} (hd : d < 32) : tFixDist.lenAt d = 5 ∧ codeOf tFixDist d = d := by
  have hlen : d < fixedDistLengths.length := by simpa [fixedDistLengths] using hd
  have hget : fixedDistLengths.getD d 0 = 5 :=
    List.eq_of_mem_replicate (getD_mem_of_lt hlen)
  obtain ⟨hl, hc⟩ := buildable_fixedDistLengths.lenAt_and_codeOf hlen hget (by omega)
  refine ⟨hl, hc.trans ?_⟩
  rw [firstCodeOf_fixedDistLengths, fixedDistLengths, List.take_replicate, List.count_replicate_self]
  omega

/-- Settles O10: within each range the codes are consecutive from the first code of the length, and 280-287 go on
where 0-143 end. -/
theorem fixedCodesOfEverySymbol : Obligations.FixedCodesOfEverySymbol := by
  obtain ⟨h7, h8, h9⟩ := firstCodeOf_fixedLitLengths
  refine ⟨fun s hs => ?_, fun s h144 hs => ?_, fun s h256 hs => ?_, fun s h280 hs => ?_, fun _ => codeOf_tFixDist⟩
  · exact codeOf_tFixLit (by omega) (by omega) (if_pos hs) (by
      rw [h8, count_take_fixedLitLengths]
      split_ifs <;> omega)
  · exact codeOf_tFixLit (by omega) (by omega) (by split_ifs <;> omega) (by
      rw [h9, count_take_fixedLitLengths]
      split_ifs <;> omega)
  · exact codeOf_tFixLit (by omega) (by omega) (by split_ifs <;> omega) (by
      rw [h7, count_take_fixedLitLengths]
      split_ifs <;> omega)
  · exact codeOf_tFixLit (by omega) (by omega) (by split_ifs <;> omega) (by
      rw [h8, count_take_fixedLitLengths]
      split_ifs <;> omega)

end Sys2Proof.Machine

namespace Sys2Proof

open Machine

/-! ## Elements with Huffman codes (30 R97, R98) -/

/-- The table was built from `n` lengths an alphabet can have. -/
theorem BuiltFrom.exists_buildable {t : HuffTable} {n m : Nat} (h : BuiltFrom t n m) (hn : n ≤ 288) (hm : m ≤ 15) :
    ∃ lens, Buildable lens m ∧ lens.length = n ∧ t = tableOf lens m := by
  obtain ⟨lens, hlen, hlengths, hlegal, ht⟩ := h
  exact ⟨lens, ⟨hlen ▸ hn, hm, hlengths, hlegal⟩, hlen, ht⟩

/-- A symbol that has a code is read back from its code (41 R176). -/
theorem huffDecode_symbolBits {t : HuffTable} {n m s p : Nat} {st : Stream} (ht : BuiltFrom t n m) (hn : n ≤ 288)
    (hm : m ≤ 15) (hs : s < n) (hcode : t.lenAt s ≠ 0) (h : Carries st p (symbolBits t s)) :
    huffDecode t st p = .ok (s, p + (symbolBits t s).length) := by
  obtain ⟨lens, hb, rfl, rfl⟩ := ht.exists_buildable hn hm
  rw [hb.lenAt_eq] at hcode
  rw [symbolBits, length_codeBits, hb.lenAt_eq]
  exact huffDecode_of_delivers hb hs hcode h.2

/-! ### Code-length symbols (41 R182) -/

section
variable {t : HuffTable} {st : Stream} {p lidx : Nat}

theorem decodeClSymbol_clLen (ht : BuiltFrom t 19 7) (n : BitVec 4) (hcode : t.lenAt n.toNat ≠ 0)
    (h : Carries st p (symbolBits t n.toNat)) :
    decodeClSymbol t lidx st p = .ok (.clLen n, p + (symbolBits t n.toNat).length) := by
  have hn := n.isLt
  rw [decodeClSymbol, huffDecode_symbolBits ht (by omega) (by omega) (by omega) hcode h, except_ok_bind]
  simp only [if_pos (show n.toNat ≤ 15 by omega), BitVec.ofNat_toNat, BitVec.setWidth_eq]
  rfl

/-- Symbol 16 after a previous length: its 2 extra bits are read. -/
theorem decodeClSymbol_clRepeatPrev (ht : BuiltFrom t 19 7) (r : BitVec 2) (hcode : t.lenAt 16 ≠ 0) (hl : lidx ≠ 0)
    (h : Carries st p (symbolBits t 16 ++ fieldBits 2 r.toNat)) :
    decodeClSymbol t lidx st p = .ok (.clRepeatPrev r, p + (symbolBits t 16 ++ fieldBits 2 r.toNat).length) := by
  obtain ⟨hsym, hextra⟩ := carries_append.1 h
  rw [decodeClSymbol, huffDecode_symbolBits ht (by omega) (by omega) (by omega) hcode hsym, except_ok_bind]
  simp [hl, readBits_bitVec r (by omega) hextra, Nat.add_assoc]

/-- Symbol 16 with no previous length: nothing more is read (log 21). -/
theorem decodeClSymbol_clRepeatPrev_first (ht : BuiltFrom t 19 7) (hcode : t.lenAt 16 ≠ 0)
    (h : Carries st p (symbolBits t 16)) :
    decodeClSymbol t 0 st p = .ok (.clRepeatPrev 0, p + (symbolBits t 16).length) := by
  rw [decodeClSymbol, huffDecode_symbolBits ht (by omega) (by omega) (by omega) hcode h]
  rfl

theorem decodeClSymbol_clRepeatZeroShort (ht : BuiltFrom t 19 7) (r : BitVec 3) (hcode : t.lenAt 17 ≠ 0)
    (h : Carries st p (symbolBits t 17 ++ fieldBits 3 r.toNat)) :
    decodeClSymbol t lidx st p = .ok (.clRepeatZeroShort r, p + (symbolBits t 17 ++ fieldBits 3 r.toNat).length) := by
  obtain ⟨hsym, hextra⟩ := carries_append.1 h
  rw [decodeClSymbol, huffDecode_symbolBits ht (by omega) (by omega) (by omega) hcode hsym, except_ok_bind]
  simp [readBits_bitVec r (by omega) hextra, Nat.add_assoc]

theorem decodeClSymbol_clRepeatZeroLong (ht : BuiltFrom t 19 7) (r : BitVec 7) (hcode : t.lenAt 18 ≠ 0)
    (h : Carries st p (symbolBits t 18 ++ fieldBits 7 r.toNat)) :
    decodeClSymbol t lidx st p = .ok (.clRepeatZeroLong r, p + (symbolBits t 18 ++ fieldBits 7 r.toNat).length) := by
  obtain ⟨hsym, hextra⟩ := carries_append.1 h
  rw [decodeClSymbol, huffDecode_symbolBits ht (by omega) (by omega) (by omega) hcode hsym, except_ok_bind]
  simp [readBits_bitVec r (by omega) hextra, Nat.add_assoc]

end

/-! ### Distances and matches (30 R98, 43 R253) -/

/-- Symbols 30 and 31 have no extra bits (43 R253). -/
theorem distanceExtra_of_invalid {d : Nat} (h : 30 ≤ d) : distanceExtra d = 0 := by
  rw [distanceExtra, List.getD_eq_default _ _ (by simpa [distanceTable] using h)]

theorem lengthExtra_le (s : Nat) : lengthExtra s ≤ 5 := by
  have hall : ∀ e ∈ lengthTable, e.2 ≤ 5 := by decide
  rw [lengthExtra]
  by_cases hs : s - 257 < lengthTable.length
  · rw [List.getD_eq_getElem _ _ hs]
    exact hall _ (List.getElem_mem hs)
  · rw [List.getD_eq_default _ _ (Nat.not_lt.1 hs)]
    exact Nat.zero_le 5

/-- A distance symbol and its extra value are read back (43 R253). -/
theorem readDistance_of_carries {c : DecodeCtx} {start p d x : Nat} {st : Stream} (ht : BuiltFrom c.tDist 32 15)
    (hd : d < 32) (hx : x < 2 ^ distanceExtra d) (hcode : c.tDist.lenAt d ≠ 0) (h : Carries st p (distanceBits c d x)) :
    readDistance c.tDist start st p = .ok ((d, x), p + (distanceBits c d x).length) := by
  obtain ⟨hsym, hextra⟩ := carries_append.1 h
  rw [readDistance, huffDecode_symbolBits ht (by omega) (by omega) hd hcode hsym, except_ok_bind, distanceBits,
    List.length_append, length_fieldBits]
  simp only [if_neg (Nat.not_le.2 hd)]
  by_cases hinvalid : 30 ≤ d
  · rw [distanceExtra_of_invalid hinvalid] at hx ⊢
    obtain rfl : x = 0 := by omega
    rw [if_pos hinvalid]
    rfl
  · have hle := distanceExtra_le d hd
    rw [if_neg hinvalid, readBits_of_carries (by omega) hx hextra, Nat.add_assoc]
    rfl

theorem matchBits_eq (c : DecodeCtx) (s e d x : Nat) :
    matchBits c s e d x = symbolBits c.tLit s ++ (fieldBits (lengthExtra s) e ++ distanceBits c d x) := by
  simp [matchBits, distanceBits]

/-- A match is read back from its fields (43 R253). -/
theorem decodeData_match {c : DecodeCtx} {p s e d x : Nat} {st : Stream} (hlit : BuiltFrom c.tLit 288 15)
    (hdist : BuiltFrom c.tDist 32 15) (h257 : 257 ≤ s) (h285 : s ≤ 285) (he : e < 2 ^ lengthExtra s) (hd : d < 32)
    (hx : x < 2 ^ distanceExtra d) (hscode : c.tLit.lenAt s ≠ 0) (hdcode : c.tDist.lenAt d ≠ 0)
    (h : Carries st p (matchBits c s e d x)) :
    decodeData c.tLit c.tDist st p = .ok (matchInstr s e d x, p + (matchBits c s e d x).length) := by
  rw [matchBits_eq] at h ⊢
  obtain ⟨hsym, hrest⟩ := carries_append.1 h
  obtain ⟨hextra, hdistance⟩ := carries_append.1 hrest
  have hle := lengthExtra_le s
  rw [length_fieldBits] at hdistance
  rw [decodeData, huffDecode_symbolBits hlit (by omega) (by omega) (by omega) hscode hsym, except_ok_bind]
  simp only [if_neg (show ¬ s ≤ 255 by omega), if_neg (show ¬ s = 256 by omega), if_pos h285, decodeMatch]
  rw [readBits_of_carries (by omega) he hextra, except_ok_bind]
  simp only [readDistance_of_carries hdist hd hx hdcode hdistance, except_ok_bind]
  rw [List.length_append, List.length_append, length_fieldBits, ← Nat.add_assoc, ← Nat.add_assoc]
  rfl

/-- The distance field alone, inside a match whose length part is read (log 11). -/
theorem decodeDistanceField_of_carries {c : DecodeCtx} {start p d x : Nat} {st : Stream} (ht : BuiltFrom c.tDist 32 15)
    (hd : d < 32) (hx : x < 2 ^ distanceExtra d) (hcode : c.tDist.lenAt d ≠ 0) (h : Carries st p (distanceBits c d x)) :
    decodeDistanceField c.tDist start st p = .ok (distanceInstr d x, p + (distanceBits c d x).length) := by
  rw [decodeDistanceField, readDistance_of_carries ht hd hx hcode h]
  rfl

/-! ### The match rows and the distance rows -/

/-- What the match row `i` of these four fields is: its fields are in range, they make the row again, and they are
what is encoded and what needs codes (30 R98, R100, R101). -/
structure MatchRow (i : Instr) (s e d x : Nat) : Prop where
  symbol : 257 ≤ s ∧ s ≤ 285
  extra : e < 2 ^ lengthExtra s
  distance : d < 32
  distanceExtra : i.wf = true → x < 2 ^ distanceExtra d
  row : matchInstr s e d x = i
  encoded : ∀ c p, encode c p i = .bits (matchBits c s e d x)
  selected : ∀ c, i.fits c ↔
    c.dstate = .huffData ∧ c.inMatch = false ∧ c.tLit.lenAt s ≠ 0 ∧ c.tDist.lenAt d ≠ 0

theorem matchRow_of_matchFields {i : Instr} {s e d x : Nat} (h : i.matchFields = some (s, e, d, x)) :
    MatchRow i s e d x := by
  cases i <;> simp only [Instr.matchFields, Option.some.injEq, Prod.mk.injEq, reduceCtorEq] at h <;>
    obtain ⟨rfl, rfl, rfl, rfl⟩ := h <;>
    exact
      { symbol := by omega
        extra := by simp [lengthExtra, lengthTable] <;> omega
        distance := BitVec.isLt _
        distanceExtra := of_decide_eq_true
        row := by simp [matchInstr]
        encoded := fun _ _ => rfl
        selected := fun _ => Iff.rfl }

/-- What the distance row `i` of these two fields is, in the same way (30 R98, R101). -/
structure DistanceRow (i : Instr) (d x : Nat) : Prop where
  symbol : d < 32
  extra : x < 2 ^ distanceExtra d
  row : distanceInstr d x = i
  encoded : ∀ c p, encode c p i = .bits (distanceBits c d x)
  selected : ∀ c, i.fits c ↔ c.dstate = .huffData ∧ c.inMatch = true ∧ c.tDist.lenAt d ≠ 0

theorem distanceRow_of_distanceFields {i : Instr} {d x : Nat} (h : i.distanceFields = some (d, x)) :
    DistanceRow i d x := by
  cases i <;> simp only [Instr.distanceFields, Option.some.injEq, Prod.mk.injEq, reduceCtorEq] at h <;>
    obtain ⟨rfl, rfl⟩ := h <;>
    exact
      { symbol := by omega
        extra := by simp [distanceExtra, distanceTable] <;> omega
        row := by simp [distanceInstr]
        encoded := fun _ _ => rfl
        selected := fun _ => Iff.rfl }

/-! ### Literals, end of block and the invalid symbols (43 R251, R252, R254) -/

section
variable {c : DecodeCtx} {st : Stream} {p : Nat}

theorem decodeData_lit (ht : BuiltFrom c.tLit 288 15) (b : Byte) (hcode : c.tLit.lenAt b.toNat ≠ 0)
    (h : Carries st p (symbolBits c.tLit b.toNat)) :
    decodeData c.tLit c.tDist st p = .ok (.lit b, p + (symbolBits c.tLit b.toNat).length) := by
  have hb := b.isLt
  rw [decodeData, huffDecode_symbolBits ht (by omega) (by omega) (by omega) hcode h, except_ok_bind]
  simp only [if_pos (show b.toNat ≤ 255 by omega), BitVec.ofNat_toNat, BitVec.setWidth_eq]
  rfl

theorem decodeData_eob (ht : BuiltFrom c.tLit 288 15) (hcode : c.tLit.lenAt 256 ≠ 0)
    (h : Carries st p (symbolBits c.tLit 256)) :
    decodeData c.tLit c.tDist st p = .ok (.eob, p + (symbolBits c.tLit 256).length) := by
  rw [decodeData, huffDecode_symbolBits ht (by omega) (by omega) (by omega) hcode h]
  rfl

theorem decodeData_litlenInvalid286 (ht : BuiltFrom c.tLit 288 15) (hcode : c.tLit.lenAt 286 ≠ 0)
    (h : Carries st p (symbolBits c.tLit 286)) :
    decodeData c.tLit c.tDist st p = .ok (.litlenInvalid286, p + (symbolBits c.tLit 286).length) := by
  rw [decodeData, huffDecode_symbolBits ht (by omega) (by omega) (by omega) hcode h]
  rfl

theorem decodeData_litlenInvalid287 (ht : BuiltFrom c.tLit 288 15) (hcode : c.tLit.lenAt 287 ≠ 0)
    (h : Carries st p (symbolBits c.tLit 287)) :
    decodeData c.tLit c.tDist st p = .ok (.litlenInvalid287, p + (symbolBits c.tLit 287).length) := by
  rw [decodeData, huffDecode_symbolBits ht (by omega) (by omega) (by omega) hcode h]
  rfl

end

/-- The elements of the code-length sub-state are read back (30 R97). -/
theorem decodeElement_dynLens {c : DecodeCtx} {start p : Nat} {st : Stream} {i : Instr} {bs : List Bool}
    (hd : c.dstate = .dynLens) (ht : BuiltFrom c.tCl 19 7) (hfits : i.fits c) (henc : encode c p i = .bits bs)
    (h : Carries st p bs) : decodeElement c start st p = .ok (i, p + bs.length) := by
  rw [decodeElement, hd]
  cases i
  case clLen n =>
    obtain ⟨_, hcode⟩ := hfits
    cases henc
    exact decodeClSymbol_clLen ht n hcode h
  case clRepeatPrev r =>
    obtain ⟨_, hcode, hr⟩ := hfits
    cases henc
    by_cases hl : c.lidx = 0
    · simp only [hr hl, hl, if_true, List.append_nil] at h ⊢
      exact decodeClSymbol_clRepeatPrev_first ht hcode h
    · rw [if_neg hl] at h ⊢
      exact decodeClSymbol_clRepeatPrev ht r hcode hl h
  case clRepeatZeroShort r =>
    obtain ⟨_, hcode⟩ := hfits
    cases henc
    exact decodeClSymbol_clRepeatZeroShort ht r hcode h
  case clRepeatZeroLong r =>
    obtain ⟨_, hcode⟩ := hfits
    cases henc
    exact decodeClSymbol_clRepeatZeroLong ht r hcode h
  all_goals simp [Instr.fits, hd] at hfits

/-- Outside a match the data sub-state decodes a data element (43 R251). -/
theorem decodeElement_outsideMatch {c : DecodeCtx} (hd : c.dstate = .huffData) (hno : c.inMatch = false)
    (start : Nat) (st : Stream) (p : Nat) : decodeElement c start st p = decodeData c.tLit c.tDist st p := by
  rw [decodeElement, hd, hno]
  rfl

/-- Inside a match it decodes the distance field (log 11). -/
theorem decodeElement_insideMatch {c : DecodeCtx} (hd : c.dstate = .huffData) (hin : c.inMatch = true)
    (start : Nat) (st : Stream) (p : Nat) :
    decodeElement c start st p = decodeDistanceField c.tDist start st p := by
  rw [decodeElement, hd, hin]
  rfl

/-- The elements of a block's data are read back (30 R98). -/
theorem decodeElement_huffData {c : DecodeCtx} {start p : Nat} {st : Stream} {i : Instr} {bs : List Bool}
    (hd : c.dstate = .huffData) (hlit : BuiltFrom c.tLit 288 15) (hdist : BuiltFrom c.tDist 32 15) (hwf : i.wf = true)
    (hfits : i.fits c) (henc : encode c p i = .bits bs) (h : Carries st p bs) :
    decodeElement c start st p = .ok (i, p + bs.length) := by
  cases hm : i.matchFields with
  | some f =>
    obtain ⟨s, e, d, x⟩ := f
    have hrow := matchRow_of_matchFields hm
    obtain ⟨h257, h285⟩ := hrow.symbol
    obtain ⟨_, hno, hscode, hdcode⟩ := (hrow.selected c).1 hfits
    cases (hrow.encoded c p).symm.trans henc
    rw [decodeElement_outsideMatch hd hno, decodeData_match hlit hdist h257 h285 hrow.extra hrow.distance
      (hrow.distanceExtra hwf) hscode hdcode h, hrow.row]
  | none =>
    cases hf : i.distanceFields with
    | some f =>
      obtain ⟨d, x⟩ := f
      have hrow := distanceRow_of_distanceFields hf
      obtain ⟨_, hin, hcode⟩ := (hrow.selected c).1 hfits
      cases (hrow.encoded c p).symm.trans henc
      rw [decodeElement_insideMatch hd hin, decodeDistanceField_of_carries hdist hrow.symbol hrow.extra hcode h,
        hrow.row]
    | none =>
      cases i
      case lit b =>
        obtain ⟨_, hno, hcode⟩ := hfits
        cases henc
        exact (decodeElement_outsideMatch hd hno start st p).trans (decodeData_lit hlit b hcode h)
      case eob =>
        obtain ⟨_, hno, hcode⟩ := hfits
        cases henc
        exact (decodeElement_outsideMatch hd hno start st p).trans (decodeData_eob hlit hcode h)
      case litlenInvalid286 =>
        obtain ⟨_, hno, hcode⟩ := hfits
        cases henc
        exact (decodeElement_outsideMatch hd hno start st p).trans (decodeData_litlenInvalid286 hlit hcode h)
      case litlenInvalid287 =>
        obtain ⟨_, hno, hcode⟩ := hfits
        cases henc
        exact (decodeElement_outsideMatch hd hno start st p).trans (decodeData_litlenInvalid287 hlit hcode h)
      all_goals simp [Instr.fits, hd, Instr.matchFields, Instr.distanceFields] at hfits hm hf

/-- Settles O5: a symbol is read back from its code (`huffDecode_symbolBits`), and the fields after it as O4 says. -/
theorem huffmanElementsRoundTrip : Obligations.HuffmanElementsRoundTrip := by
  intro c start p st i bs hwf hfits hcl hdata hd henc h
  rcases hd with hd | hd
  · exact decodeElement_dynLens hd (hcl hd) hfits henc h
  · obtain ⟨hlit, hdist⟩ := hdata hd
    exact decodeElement_huffData hd hlit hdist hwf hfits henc h

end Sys2Proof

/-! # Proofs about the cursor (40_bitcursor.md)

The value of a read first (split in two, and at a byte boundary), then what ReadBytes can do and the engine's step on a
raise. -/

namespace Sys2Proof

open Machine

/-! ## The value of a read, split in two (40 R142) -/

/-- In LSB order the bits read first are the low ones. -/
theorem lsbValue_add (st : Stream) (a b p : Nat) :
    lsbValue st (a + b) p = lsbValue st a p + lsbValue st b (p + a) * 2 ^ a := by
  induction a generalizing p with
  | zero => simp [lsbValue]
  | succ a ih =>
    rw [Nat.succ_add, lsbValue, lsbValue, ih, Nat.add_right_comm p 1 a, ← Nat.add_assoc p a 1]
    ring

/-- In MSB order the bits read first are the high ones. -/
theorem msbValue_add (st : Stream) (a b p : Nat) :
    msbValue st (a + b) p = msbValue st a p * 2 ^ b + msbValue st b (p + a) := by
  induction a generalizing p with
  | zero => simp [msbValue]
  | succ a ih =>
    rw [Nat.succ_add, msbValue, msbValue, ih, Nat.add_right_comm p 1 a, ← Nat.add_assoc p a 1]
    ring

/-! ## The value of a read at a byte boundary (40 R141, R142) -/

/-- In MSB order the bits from a boundary on are those of the byte there, the most significant first. -/
theorem bitAt_aligned_msb {st : Stream} {q k : Nat} (ho : st.order = .msb) (hq : q % 8 = 0) (hk : k < 8) :
    bitAt st (q + k) = (st.byteAt (q / 8)).getLsbD (7 - k) := by
  simp only [bitAt, ho]
  rw [show (q + k) / 8 = q / 8 by omega, show (q + k) % 8 = k by omega]

/-- The first `n` bits of a byte in LSB order are its low ones. -/
theorem lsbValue_aligned {st : Stream} {q n : Nat} (ho : st.order = .lsb) (hq : q % 8 = 0) (hn : n ≤ 8) :
    lsbValue st n q = (st.byteAt (q / 8)).toNat % 2 ^ n := by
  induction n with
  | zero => simp [lsbValue, Nat.mod_one]
  | succ n ih =>
    rw [lsbValue_add, ih (by omega), Nat.mod_pow_succ, ← Nat.toNat_testBit, BitVec.testBit_toNat,
      ← bitAt_aligned ho hq (by omega)]
    simp [lsbValue, Nat.mul_comm]

/-- The first `n` bits of a byte in MSB order are its high ones. -/
theorem msbValue_aligned {st : Stream} {q n : Nat} (ho : st.order = .msb) (hq : q % 8 = 0) (hn : n ≤ 8) :
    msbValue st n q = (st.byteAt (q / 8)).toNat / 2 ^ (8 - n) := by
  induction n with
  | zero =>
    rw [msbValue, Nat.div_eq_of_lt (BitVec.isLt _)]
  | succ n ih =>
    rw [msbValue_add, ih (by omega), ← prefix_succ (show n < 8 by omega), BitVec.testBit_toNat,
      ← bitAt_aligned_msb ho hq (by omega)]
    simp [msbValue, Nat.mul_comm]

/-- Eight bits from a boundary on are the byte there, in either order (40 R150). -/
theorem streamValue_aligned_byte (st : Stream) {q : Nat} (hq : q % 8 = 0) :
    streamValue st 8 q = (st.byteAt (q / 8)).toNat := by
  cases ho : st.order with
  | lsb =>
    simp only [streamValue, ho]
    rw [lsbValue_aligned ho hq le_rfl, Nat.mod_eq_of_lt (BitVec.isLt _)]
  | msb =>
    simp only [streamValue, ho]
    rw [msbValue_aligned ho hq le_rfl, Nat.sub_self, Nat.pow_zero, Nat.div_one]

/-- Sixteen bits from a boundary on are two bytes, in LSB order the low one first (40 R150). -/
theorem streamValue_aligned_halfword {st : Stream} {q : Nat} (ho : st.order = .lsb) (hq : q % 8 = 0) :
    streamValue st 16 q = (st.byteAt (q / 8)).toNat + 256 * (st.byteAt (q / 8 + 1)).toNat := by
  have hlow := streamValue_aligned_byte st hq
  have hhigh := streamValue_aligned_byte st (q := q + 8) (by omega)
  simp only [streamValue, ho] at hlow hhigh ⊢
  rw [lsbValue_add st 8 8, hlow, hhigh, show (q + 8) / 8 = q / 8 + 1 by omega]
  ring

/-! ## What the reads can do (40 R144, R145, R147) -/

/-- Everything PeekBits of at most 16 bits can do (40 R144). -/
theorem peekBits_cases (st : Stream) {n : Nat} (p : Nat) (hn : n ≤ 16) :
    (st.avail < p + n ∧ peekBits st n p = .error (.underrun n p)) ∨
    (p + n ≤ st.avail ∧ peekBits st n p = .ok (streamValue st n p)) := by
  have hwide : ¬ Config.maxReadBits < n := Nat.not_lt.2 hn
  rcases Nat.lt_or_ge st.avail (p + n) with h | h
  · exact .inl ⟨h, by rw [peekBits, if_neg hwide, if_pos h]⟩
  · exact .inr ⟨h, by rw [peekBits, if_neg hwide, if_neg (Nat.not_lt.2 h)]⟩

/-- ReadBits is PeekBits, then the move (40 R145). -/
theorem readBits_eq_peekBits (st : Stream) (n p : Nat) :
    readBits st n p = (peekBits st n p).map (fun v => (v, p + n)) := by
  unfold readBits
  cases peekBits st n p <;> rfl

@[simp] theorem length_byteSlice (st : Stream) (a n : Nat) : (byteSlice st a n).length = n := by simp [byteSlice]

theorem getD_byteSlice (st : Stream) (a : Nat) {n i : Nat} (hi : i < n) :
    (byteSlice st a n).getD i 0 = st.byteAt (a + i) := by
  simp [byteSlice, List.getD_eq_getElem?_getD, hi]

/-- ReadBytes discards the partial byte but in MSB order inside a byte with the reading shifted (40 R147; log 12). -/
theorem readBytes_eq_aligned {st : Stream} {p : Nat} (n : Nat)
    (h : st.order = .lsb ∨ st.rarAlign = .skip ∨ p % 8 = 0) : readBytes st n p = readBytesAligned st n p := by
  unfold readBytes
  split
  next ho hr => simp_all
  next => rfl

/-- In MSB order inside a byte, the reading shifted takes the bits from the cursor on (log 12). -/
theorem readBytes_eq_shifted {st : Stream} {p : Nat} (n : Nat) (ho : st.order = .msb) (hr : st.rarAlign = .shifted)
    (hp : p % 8 ≠ 0) : readBytes st n p = readBytesShifted st n p := by
  simp [readBytes, ho, hr, hp]

/-- Everything ReadBytes from the next boundary on can do, counted in bits (40 R147). -/
theorem readBytesAligned_cases (st : Stream) (n p : Nat) :
    (st.avail < alignByte p + 8 * n ∧ readBytesAligned st n p = .error (.underrun (8 * n) (alignByte p))) ∨
    (alignByte p + 8 * n ≤ st.avail ∧
      readBytesAligned st n p = .ok (byteSlice st (alignByte p / 8) n, alignByte p + 8 * n)) := by
  obtain ⟨_, _, haligned⟩ := alignByte_spec p
  have havail : st.avail = 8 * st.recv := rfl
  by_cases h : st.recv < alignByte p / 8 + n
  · exact .inl ⟨by omega, by rw [readBytesAligned, if_pos h]⟩
  · refine .inr ⟨by omega, ?_⟩
    rw [readBytesAligned, if_neg h, show 8 * (alignByte p / 8 + n) = alignByte p + 8 * n by omega]

/-- Everything ReadBytes shifted can do; the values of the bytes are left out (log 12). -/
theorem readBytesShifted_cases (st : Stream) (n p : Nat) :
    (st.avail < p + 8 * n ∧ readBytesShifted st n p = .error (.underrun (8 * n) p)) ∨
    (p + 8 * n ≤ st.avail ∧ ∃ bs, readBytesShifted st n p = .ok (bs, p + 8 * n) ∧ bs.length = n) := by
  by_cases h : st.avail < p + 8 * n
  · exact .inl ⟨h, if_pos h⟩
  · exact .inr ⟨by omega, _, if_neg h, by simp⟩

/-- ReadBytes(1) at a boundary is the byte there (40 R150). -/
theorem readBytes_one_aligned {st : Stream} {p : Nat} (hp : p % 8 = 0) (hfits : p + 8 ≤ st.avail) :
    readBytes st 1 p = .ok ([st.byteAt (p / 8)], p + 8) := by
  have hcases := readBytesAligned_cases st 1 p
  rw [alignByte_of_aligned hp] at hcases
  rw [readBytes_eq_aligned 1 (.inr (.inr hp))]
  rcases hcases with ⟨hshort, _⟩ | ⟨_, hread⟩
  · omega
  · exact hread

/-- Settles O11: the values of the reads are those of `streamValue`, which splits as `lsbValue_add` and `msbValue_add`
say and is a byte at a boundary. -/
theorem readsSplitAndAreLittleEndian : Obligations.ReadsSplitAndAreLittleEndian := by
  intro st p
  refine ⟨fun a b hab hfits => ?_, fun hp hfits => ⟨?_, readBytes_one_aligned hp hfits⟩, fun hp hfits ho => ?_⟩
  · refine ⟨_, _, readBits_of_le st a p (by omega) (by omega), readBits_of_le st b (p + a) (by omega) hfits,
      fun ho => ?_, fun ho => ?_⟩
    · simp only [streamValue, ho, lsbValue_add]
    · simp only [streamValue, ho, msbValue_add]
  · rw [readBits_of_le st 8 p (by omega) hfits, streamValue_aligned_byte st hp]
  · rw [readBits_of_le st 16 p le_rfl hfits, streamValue_aligned_halfword ho hp]

/-! ## The engine's step on a raise (60 R341, R345, R349) -/

/-- An element that cannot be read raises on the state before the step, its turn taken off the schedule. -/
theorem step_of_fetchElement_error {s : State} {r : Raise} (hrun : s.state = .run) (hturn : nextTurn s = .engine)
    (hfetch : fetchElement s = .error r) : step s = takeRaise r { s with sched := s.sched.tail } := by
  rw [step_eq_turnWork, hturn]
  rcases engineWork_run { s with sched := s.sched.tail } hrun with ⟨i, q, hok, _⟩ | ⟨r', herr, hwork⟩
  · cases hok.symm.trans hfetch
  · cases herr.symm.trans hfetch
    exact congrArg Work.outcome hwork

/-- An underrun waits while input is missing (60 R345). -/
theorem raiseUnderrun_of_lt {req a : Nat} {s : State} (h : s.inRecv.toNat < s.csize.toNat) :
    raiseUnderrun req a s = enterWaiting req a s := if_pos h

/-- An underrun is fatal once the slice is complete (60 R345). -/
theorem raised_raiseUnderrun_of_le {req a : Nat} {s : State} (h : s.csize.toNat ≤ s.inRecv.toNat) :
    Raised s (raiseUnderrun req a s) 0x1A a req := by
  rw [raiseUnderrun, if_neg (Nat.not_lt.2 h)]
  exact raised_raiseError ..

/-- Settles O16: each read by its list of outcomes (`peekBits_cases`, `readBytesAligned_cases`,
`readBytesShifted_cases`), and the step by the two halves of `raiseUnderrun`. -/
theorem underrunWaitsOrTruncates : Obligations.UnderrunWaitsOrTruncates := by
  refine ⟨fun st n p hn _ => ?_, fun st n p q _ hpq hqp hq => ?_, fun s req a hrun hturn hfetch => ?_⟩
  · rw [readBits_eq_peekBits]
    rcases peekBits_cases st p hn with ⟨hshort, hpeek⟩ | ⟨hfits, hpeek⟩
    · exact ⟨fun _ => by rw [hpeek]; exact ⟨rfl, rfl⟩, fun h => by omega⟩
    · exact ⟨fun h => by omega, fun _ => by rw [hpeek]; exact ⟨rfl, rfl⟩⟩
  · obtain rfl := alignByte_eq_of_boundary hpq hqp hq
    refine ⟨fun hreading => ?_, fun ho hr hinside => ?_⟩
    · rw [readBytes_eq_aligned n (hreading.imp_right (.imp_right fun h => h ▸ hq))]
      rcases readBytesAligned_cases st n p with ⟨hshort, hread⟩ | ⟨hfits, hread⟩
      · exact ⟨fun _ => hread, fun h => by omega⟩
      · exact ⟨fun h => by omega, fun _ => ⟨_, hread, length_byteSlice .., fun i hi => getD_byteSlice st _ hi⟩⟩
    · rw [readBytes_eq_shifted n ho hr fun h => hinside (alignByte_of_aligned h).symm]
      rcases readBytesShifted_cases st n p with ⟨hshort, hread⟩ | ⟨hfits, hread⟩
      · exact ⟨fun _ => hread, fun h => by omega⟩
      · exact ⟨fun h => by omega, fun _ => hread⟩
  · exact ⟨_, step_of_fetchElement_error hrun hturn hfetch, fun hmissing => raiseUnderrun_of_lt hmissing,
      fun hcomplete => raised_raiseUnderrun_of_le hcomplete⟩

end Sys2Proof

/-! # Proofs about Huffman tables (41_huffman.md)

The build of a table first (when a length set over-subscribes, and the codes of each length), then the decoding of bits
that carry no code, then the fixed literal/length table, and last the code-length symbols. -/

namespace Sys2Proof.Machine

/-! ## Over-subscription (41 R173) -/

/-- The sum of 41 R173 is where the codes of length `L` end: the code space that the codes of at most `L` bits take,
counted in codes of `L` bits. -/
theorem sum_count_mul_eq_codesEnd (lens : List Nat) (L : Nat) :
    ((List.range L).map (fun j => lens.count (j + 1) * 2 ^ (L - (j + 1)))).sum =
      firstCodeOf lens L + lengthCount lens L := by
  induction L with
  | zero => simp [firstCodeOf, lengthCount]
  | succ L ih =>
    have hdouble : (List.range L).map (fun j => lens.count (j + 1) * 2 ^ (L + 1 - (j + 1))) =
        (List.range L).map (fun j => 2 * (lens.count (j + 1) * 2 ^ (L - (j + 1)))) :=
      List.map_congr_left fun j hj => by
        have hlt := List.mem_range.1 hj
        rw [show L + 1 - (j + 1) = L - (j + 1) + 1 by omega, Nat.pow_succ]
        ring
    rw [List.range_succ, List.map_append, List.sum_append, hdouble, List.sum_map_mul_left, ih, firstCodeOf,
      lengthCount_succ]
    simp

/-- The `left` loop of 41 R172 answers true where the codes of every length end inside its code space. -/
theorem leftNeverNegative_of_codesEnd_le {lens : List Nat} {k l : Nat}
    (h : ∀ n, l ≤ n → n ≤ l + k → firstCodeOf lens n + lengthCount lens n ≤ 2 ^ n) :
    leftNeverNegative lens k (l + 1) (2 ^ l - (firstCodeOf lens l + lengthCount lens l)) = true := by
  induction k generalizing l with
  | zero => rfl
  | succ k ih =>
    have hfirst : firstCodeOf lens (l + 1) = 2 * (firstCodeOf lens l + lengthCount lens l) := rfl
    have hend := h (l + 1) (by omega) (by omega)
    rw [leftNeverNegative, if_neg (by omega), show
      2 * (2 ^ l - (firstCodeOf lens l + lengthCount lens l)) - lengthCount lens (l + 1) =
        2 ^ (l + 1) - (firstCodeOf lens (l + 1) + lengthCount lens (l + 1)) by omega]
    exact ih fun n hn hnk => h n (by omega) (by omega)

/-- A length set does not over-subscribe exactly where the codes of every length end inside its code space. -/
theorem overSubscribed_eq_false_iff {lens : List Nat} {m : Nat} :
    overSubscribed lens m = false ↔ ∀ n, n ≤ m → firstCodeOf lens n + lengthCount lens n ≤ 2 ^ n := by
  have hzero : firstCodeOf lens 0 + lengthCount lens 0 = 0 := rfl
  rw [overSubscribed, Bool.not_eq_false']
  refine ⟨fun h n hn => ?_, fun h => ?_⟩
  · exact codesEnd_le_of_leftNeverNegative (l := 0) (by omega) h (Nat.zero_le n) (by omega)
  · exact leftNeverNegative_of_codesEnd_le (l := 0) fun n _ hn => h n (by omega)

/-- Settles O7: the sum of each `L` is where its codes end (`sum_count_mul_eq_codesEnd`), which the `left` loop compares
with the code space (`overSubscribed_eq_false_iff`). -/
theorem overSubscriptionIsRaisedAtBuild : Obligations.OverSubscriptionIsRaisedAtBuild := by
  intro tid lens m a
  simp only [sum_count_mul_eq_codesEnd]
  rcases huffBuild_cases tid lens m a with ⟨hover, hbuild⟩ | ⟨hlegal, hbuild⟩
  · refine ⟨fun _ => hbuild, fun hfits => ?_⟩
    have hlegal : overSubscribed lens m = false := overSubscribed_eq_false_iff.2 fun n hn => by
      rcases Nat.eq_zero_or_pos n with rfl | hpos
      · simp [firstCodeOf, lengthCount]
      · exact hfits n hpos hn
    rw [hlegal] at hover
    contradiction
  · refine ⟨fun ⟨L, _, hL, hexceeds⟩ => ?_, fun _ => hbuild⟩
    have hend := overSubscribed_eq_false_iff.1 hlegal L hL
    omega

/-! ## The codes of a length (41 R174, R175) -/

/-- The `r`-th symbol of its length stands in `sym` at the first index of the length plus `r`. -/
theorem Buildable.symAt_firstIndexAt_add_rank {lens : List Nat} {m s : Nat} (h : Buildable lens m)
    (hs : s < lens.length) (hcode : lens.getD s 0 ≠ 0) :
    (tableOf lens m).symAt ((tableOf lens m).firstIndexAt (lens.getD s 0) + symbolRank lens s) = s := by
  have hle := h.getD_le s
  rw [h.firstIndexAt_eq (by omega) hle]
  exact h.symAt_eq (symbolOrder_firstIndexOf_add_rank hs hcode hle)

/-- Settles O8: the fields of a built table are those of `firstCodeOf` and `symbolOrder`. -/
theorem codesOfALengthAreConsecutive : Obligations.CodesOfALengthAreConsecutive := by
  intro lens m hn hm hlens hlegal
  have h : Buildable lens m := ⟨hn, hm, hlens, hlegal⟩
  refine ⟨fun h1 => ?_, fun l h2 hl => ?_, fun s r hs hcode hr => ?_⟩
  · rw [h.firstCodeAt_eq le_rfl h1]
    rfl
  · obtain ⟨k, rfl⟩ := Nat.exists_eq_add_of_le' h2
    rw [h.firstCodeAt_eq (by omega) hl, h.firstCodeAt_eq (by omega) (by omega), h.countAt_eq (by omega)]
    rfl
  · obtain rfl : r = symbolRank lens s := hr
    refine ⟨h.lenAt_eq s, ?_, h.codeOf_lt hs hcode, h.symAt_firstIndexAt_add_rank hs hcode⟩
    rw [h.codeOf_eq hcode, h.firstCodeAt_eq (by omega) (h.getD_le s)]

/-- Every number among the codes of a length is the code of a symbol of that length. -/
theorem Buildable.exists_codeOf_eq {lens : List Nat} {m l v : Nat} (h : Buildable lens m) (h1 : 1 ≤ l) (hl : l ≤ m)
    (hfirst : (tableOf lens m).firstCodeAt l ≤ v)
    (hend : v < (tableOf lens m).firstCodeAt l + (tableOf lens m).countAt l) :
    ∃ s, s < lens.length ∧ lens.getD s 0 = l ∧ codeOf (tableOf lens m) s = v := by
  have hlimit := h.limit
  have hnodup : (symbolsOfLength lens l).Nodup := List.nodup_range.filter _
  rw [h.firstCodeAt_eq h1 hl] at hfirst hend
  rw [h.countAt_eq (by omega), lengthCount, if_neg (by omega), ← length_symbolsOfLength] at hend
  have hr : v - firstCodeOf lens l < (symbolsOfLength lens l).length := by omega
  obtain ⟨s, hget⟩ : ∃ s, (symbolsOfLength lens l)[v - firstCodeOf lens l]? = some s :=
    ⟨_, List.getElem?_eq_getElem hr⟩
  obtain ⟨hs, hsl⟩ : s < lens.length ∧ lens.getD s 0 = l := by
    simpa [symbolsOfLength] using List.mem_of_getElem? hget
  refine ⟨s, hs, hsl, ?_⟩
  subst hsl
  have hrank : v - firstCodeOf lens (lens.getD s 0) = symbolRank lens s :=
    (List.getElem?_inj hr hnodup).1 (hget.trans (symbolsOfLength_rank hs).symm)
  rw [h.codeOf_eq (by omega)]
  omega

/-! ## Decoding bits that carry no code (41 R176, R177, R178) -/

theorem streamValue_one (st : Stream) (p : Nat) : streamValue st 1 p = (bitAt st p).toNat := by
  cases ho : st.order <;> simp [streamValue, ho, lsbValue, msbValue]

/-- One more bit read, the first bit being the most significant. -/
theorem msbValue_succ (st : Stream) (n p : Nat) :
    msbValue st (n + 1) p = 2 * msbValue st n p + (bitAt st (p + n)).toNat := by
  rw [msbValue_add]
  simp [msbValue, Nat.mul_comm]

/-- Bit `k` read stands `n - 1 - k` places up in the value of `n` bits. -/
theorem testBit_msbValue (st : Stream) {n k : Nat} (p : Nat) (hk : k < n) :
    (msbValue st n p).testBit (n - 1 - k) = bitAt st (p + k) := by
  obtain ⟨d, rfl⟩ := Nat.exists_eq_add_of_lt hk
  rw [show k + d + 1 = k + 1 + d by omega, show k + 1 + d - 1 - k = d by omega, msbValue_add, Nat.mul_comm,
    Nat.testBit_two_pow_mul_add _ (msbValue_lt ..), if_neg (lt_irrefl d), Nat.sub_self, msbValue_succ, Nat.testBit_zero]
  cases bitAt st (p + k) <;> simp

/-- The delivered bits from `p` on are the code that their value is. -/
theorem delivers_codeBits_msbValue {st : Stream} {n p : Nat} (h : p + n ≤ st.avail) :
    Delivers st p (codeBits n (msbValue st n p)) := by
  refine ⟨by simpa using h, fun k hk => ?_⟩
  rw [length_codeBits] at hk
  rw [getD_codeBits _ hk, testBit_msbValue st p hk]

/-- The first `l` delivered bits from `p` on are a number among the codes of length `l` (41 R176). -/
def MatchesAt (t : HuffTable) (st : Stream) (p l : Nat) : Prop :=
  p + l ≤ st.avail ∧ t.firstCodeAt l ≤ msbValue st l p ∧ msbValue st l p < t.firstCodeAt l + t.countAt l

/-- HuffDecode's loop after `j` bits, where no length it still tries matches: it reads all the bits there are to read,
and raises when it has read as many as its longest code, or when no more are delivered. -/
theorem huffLoop_of_no_match {t : HuffTable} {st : Stream} {p start j k : Nat} (hj : p + j ≤ st.avail)
    (hno : ∀ l, j < l → l ≤ j + k → ¬ MatchesAt t st p l) :
    huffLoop t st start k (j + 1) (msbValue st j p) (p + j) =
      if p + (j + k) ≤ st.avail then .error (.error .corruptHuffmanTable start (msbValue st (j + k) p))
      else .error (.underrun 1 st.avail) := by
  induction k generalizing j with
  | zero => simp [huffLoop, hj]
  | succ k ih =>
    rcases readBits_cases st 1 (p + j) with ⟨hwide, _⟩ | ⟨_, hshort, hread⟩ | ⟨_, hfits, hread⟩
    · omega
    · obtain hend : p + j = st.avail := by omega
      rw [huffLoop, readBit, hread, if_neg (by omega), hend]
    · have hnext : ¬ (t.firstCodeAt (j + 1) ≤ msbValue st (j + 1) p ∧
          msbValue st (j + 1) p < t.firstCodeAt (j + 1) + t.countAt (j + 1)) :=
        fun h => hno (j + 1) (by omega) (by omega) ⟨hfits, h⟩
      simp only [huffLoop, readBit, hread, streamValue_one, ← msbValue_succ, if_neg hnext]
      rw [Nat.add_assoc p j 1, ih hfits fun l hl hlk => hno l (by omega) (by omega), Nat.add_right_comm j 1 k,
        Nat.add_assoc j k 1]

/-- A match of the loop is the code of a symbol that stands there. -/
theorem Buildable.exists_delivers_of_matchesAt {lens : List Nat} {m l p : Nat} {st : Stream} (h : Buildable lens m)
    (h1 : 1 ≤ l) (hl : l ≤ m) (hmatch : MatchesAt (tableOf lens m) st p l) :
    ∃ s, s < lens.length ∧ lens.getD s 0 ≠ 0 ∧ Delivers st p (symbolBits (tableOf lens m) s) := by
  obtain ⟨hfits, hfirst, hend⟩ := hmatch
  obtain ⟨s, hs, hsl, hcode⟩ := h.exists_codeOf_eq h1 hl hfirst hend
  refine ⟨s, hs, by omega, ?_⟩
  rw [symbolBits, h.lenAt_eq, hsl, hcode]
  exact delivers_codeBits_msbValue hfits

/-- HuffDecode of a table that was built is its loop over the lengths up to the longest one. -/
theorem Buildable.huffDecode_eq {lens : List Nat} {m : Nat} (h : Buildable lens m) (st : Stream) (p : Nat) :
    huffDecode (tableOf lens m) st p = huffLoop (tableOf lens m) st p (longestLength lens) 1 0 p := by
  rw [huffDecode, if_pos (show (tableOf lens m).built = true from rfl), h.maxLen_eq]

/-- HuffDecode where no symbol's code stands (41 R177, R178). -/
theorem huffDecode_of_not_delivers {lens : List Nat} {m p : Nat} {st : Stream} (h : Buildable lens m)
    (hno : ∀ s, s < lens.length → lens.getD s 0 ≠ 0 → ¬ Delivers st p (symbolBits (tableOf lens m) s))
    (hp : p ≤ st.avail) :
    huffDecode (tableOf lens m) st p =
      if p + longestLength lens ≤ st.avail then
        .error (.error .corruptHuffmanTable p (msbValue st (longestLength lens) p))
      else .error (.underrun 1 st.avail) := by
  have hlongest : longestLength lens ≤ m := longestLength_le_iff.2 h.lengths
  have hloop := huffLoop_of_no_match (t := tableOf lens m) (start := p) (j := 0) (k := longestLength lens) hp
    fun l hl hlk hmatch => by
      obtain ⟨s, hs, hcode, hbits⟩ := h.exists_delivers_of_matchesAt hl (by omega) hmatch
      exact hno s hs hcode hbits
  rw [Nat.zero_add (longestLength lens)] at hloop
  rw [h.huffDecode_eq]
  exact hloop

theorem longestLength_eq {lens : List Nat} {L : Nat} (hle : ∀ l, l ∈ lens → l ≤ L) (hL : L = 0 ∨ L ∈ lens) :
    longestLength lens = L := by
  have hlongest := longestLength_le_iff.2 hle
  rcases hL with rfl | hmem
  · omega
  · exact le_antisymm hlongest (le_longestLength hmem)

/-- Settles O6: no beginning of a code is a code (`huffDecode_of_delivers`), and a number the loop takes for a code is
the code of a symbol that stands there (`Buildable.exists_delivers_of_matchesAt`), so that the loop runs to its end where
no symbol's code stands (`huffDecode_of_not_delivers`). -/
theorem huffDecodeInvertsCode : Obligations.HuffDecodeInvertsCode := by
  intro lens m L p st hn hm hlens hlegal hle hL
  have h : Buildable lens m := ⟨hn, hm, hlens, hlegal⟩
  obtain rfl := longestLength_eq hle hL
  refine ⟨fun s hs hcode hbits => huffDecode_of_delivers h hs hcode hbits,
    fun hno => ⟨fun hfits => ?_, fun hp hshort => ?_⟩, fun hzero => ?_⟩
  · rw [huffDecode_of_not_delivers h hno (by omega), if_pos hfits]
  · rw [huffDecode_of_not_delivers h hno hp, if_neg (by omega)]
  · rw [h.huffDecode_eq, hzero]
    rfl

/-! ## The fixed literal/length table (10 R33, 41 R185) -/

/-- Choosing the symbols of length `l` from a run of symbols that all have length `c`. -/
theorem filter_range'_of_getD_eq {lens : List Nat} {a n c : Nat} (h : ∀ s, a ≤ s → s < a + n → lens.getD s 0 = c)
    (l : Nat) : (List.range' a n).filter (fun s => lens.getD s 0 == l) = if c = l then List.range' a n else [] := by
  have hget : ∀ s ∈ List.range' a n, lens.getD s 0 = c := fun s hs => by
    obtain ⟨has, hsn⟩ := List.mem_range'_1.1 hs
    exact h s has hsn
  split
  next heq => exact List.filter_eq_self.2 fun s hs => beq_iff_eq.2 ((hget s hs).trans heq)
  next hne => exact List.filter_eq_nil_iff.2 fun s hs hl => hne ((hget s hs).symm.trans (beq_iff_eq.1 hl))

/-- The fixed literal/length symbols of each length: four runs (10 R33). -/
theorem symbolsOfLength_fixedLitLengths (l : Nat) : symbolsOfLength fixedLitLengths l =
    (if 8 = l then List.range' 0 144 else []) ++ (if 9 = l then List.range' 144 112 else []) ++
      (if 7 = l then List.range' 256 24 else []) ++ (if 8 = l then List.range' 280 8 else []) := by
  have hruns : List.range 288 =
      List.range' 0 144 ++ List.range' 144 112 ++ List.range' 256 24 ++ List.range' 280 8 := by
    rw [List.range_eq_range', show 288 = 144 + 112 + 24 + 8 from rfl, ← List.range'_append_1, ← List.range'_append_1,
      ← List.range'_append_1]
  have hrun : ∀ {a n c : Nat}, (∀ s, a ≤ s → s < a + n → s < 288 ∧
      (if s < 144 then 8 else if s < 256 then 9 else if s < 280 then 7 else 8) = c) →
      (List.range' a n).filter (fun s => fixedLitLengths.getD s 0 == l) = if c = l then List.range' a n else [] :=
    fun h => filter_range'_of_getD_eq (fun s has hsn =>
      (getD_fixedLitLengths (h s has hsn).1).trans (h s has hsn).2) l
  rw [symbolsOfLength, length_fixedLitLengths, hruns, List.filter_append, List.filter_append, List.filter_append,
    hrun (c := 8) (by grind), hrun (c := 9) (by grind), hrun (c := 7) (by grind), hrun (c := 8) (by grind)]

/-- The fixed literal/length symbols by length, then by value (41 R185). -/
theorem symbolOrder_fixedLitLengths : symbolOrder fixedLitLengths 15 =
    List.range' 256 24 ++ List.range 144 ++ List.range' 280 8 ++ List.range' 144 112 := by
  rw [List.range_eq_range']
  simp [symbolOrder, symbolsOfLength_fixedLitLengths, List.range_succ]

theorem count_tFixLit : tFixLit.count = [0, 0, 0, 0, 0, 0, 0, 24, 152, 112, 0, 0, 0, 0, 0, 0] := by
  simp [tFixLit, tableOf, lengthCount_fixedLitLengths, List.range_succ]

theorem firstCode_tFixLit :
    tFixLit.firstCode = [0, 0, 0, 0, 0, 0, 0, 48, 400, 1024, 2048, 4096, 8192, 16384, 32768] := by
  simp [tFixLit, tableOf, upTo, Config.maxBitsLitDist, firstCodeOf, lengthCount_fixedLitLengths, List.range_succ]

theorem sym_tFixLit : tFixLit.sym =
    (List.range' 256 24 ++ List.range 144 ++ List.range' 280 8 ++ List.range' 144 112).map (BitVec.ofNat 9) := by
  rw [← symbolOrder_fixedLitLengths]
  have hlen : ((symbolOrder fixedLitLengths 15).map (BitVec.ofNat 9)).length = 288 := by
    rw [symbolOrder_fixedLitLengths]
    simp
  simp only [tFixLit, tableOf, Config.maxBitsLitDist, length_fixedLitLengths]
  exact List.take_left' hlen

theorem maxLen_tFixLit : tFixLit.maxLen = 9 := by
  have hlongest : longestLength fixedLitLengths = 9 := by
    refine le_antisymm (longestLength_le_iff.2 fun l hl => ?_) (le_longestLength ?_)
    · have hcases := mem_fixedLitLengths hl
      omega
    · simp only [fixedLitLengths, List.mem_append, List.mem_replicate]
      decide
  rw [tFixLit, tableOf, hlongest]
  rfl

/-- The first index of a length in the fixed literal/length table counts the shorter codes (41 R185). -/
theorem firstIndexAt_tFixLit {l : Nat} (h1 : 1 ≤ l) (hl : l ≤ 15) :
    tFixLit.firstIndexAt l = firstIndexOf fixedLitLengths l :=
  buildable_fixedLitLengths.firstIndexAt_eq h1 hl

/-- Settles O9, field by field. -/
theorem fixedLiteralTableFields : Obligations.FixedLiteralTableFields := by
  refine ⟨count_tFixLit, firstCode_tFixLit, ?_, ?_, ?_, sym_tFixLit, maxLen_tFixLit⟩ <;>
    rw [firstIndexAt_tFixLit (by omega) (by omega)] <;>
    simp [firstIndexOf, lengthCount_fixedLitLengths]

/-! ## Code-length symbols (41 R182, 43 R249) -/

/-- The LENS entries after a run that fits: the run's value inside it, and what stood there outside it. -/
theorem lensAt_writeRun {s : State} {r : Nat} (v : BitVec 4) (hr : s.lidx.toNat + r ≤ s.lens.length) (k : Nat) :
    lensAt (writeRun v r s) k = if s.lidx.toNat ≤ k ∧ k < s.lidx.toNat + r then v else lensAt s k := by
  rcases Nat.lt_or_ge k s.lens.length with hk | hk
  · exact setRun_getD s.lens s.lidx.toNat r v k hk
  · rw [if_neg (by omega), lensAt, lensAt, writeRun_lens, List.getD_eq_default _ _ hk,
      List.getD_eq_default _ _ (by rwa [setRun_length])]

theorem writeRun_lidx_toNat {s : State} {r : Nat} (v : BitVec 4) (hr : s.lidx.toNat + r < 2 ^ 9) :
    (writeRun v r s).lidx.toNat = s.lidx.toNat + r := by
  rw [writeRun_lidx, BitVec.toNat_ofNat, Nat.mod_eq_of_lt hr]

/-- A code-length symbol whose run leaves lengths to read writes the run and ends the step (43 R249). -/
theorem exec_lengthRun_of_lt {s : State} {i : Instr} {v : BitVec 4} {r : Nat} (hrun : lengthRun s i = some (v, r))
    (hlt : s.lidx.toNat + r < totalLengths s) :
    exec i s = .next (counterUpdate (commitCursor (writeRun v r s))) := by
  rw [exec_lengthRun hrun]
  rcases applyRun_cases v r s with ⟨hpast, _⟩ | ⟨hlast, _⟩ | ⟨_, happly⟩
  · omega
  · omega
  · rw [happly, runElement_ok]

/-- A code-length symbol whose run goes past HLIT + HDIST raises (41 R182). -/
theorem exec_lengthRun_of_gt {s : State} {i : Instr} {v : BitVec 4} {r : Nat} (hrun : lengthRun s i = some (v, r))
    (hgt : totalLengths s < s.lidx.toNat + r) :
    exec i s = .next (raiseError .invalidCodeLengths s.pos.toNat 0x103 s) := by
  rw [exec_lengthRun hrun]
  rcases applyRun_cases v r s with ⟨_, happly⟩ | ⟨hlast, _⟩ | ⟨hlt, _⟩
  · rw [happly, runElement_error, takeRaise_error]
  · omega
  · omega

/-- Symbol 16 with no previous length raises (41 R182). -/
theorem exec_clRepeatPrev_of_first {s : State} (r : BitVec 2) (hfirst : s.lidx = 0) :
    exec (.clRepeatPrev r) s = .next (raiseError .invalidCodeLengths s.pos.toNat 0x102 s) := by
  have hbody : repeatPrevious r.toNat s = .error (.error .invalidCodeLengths s.pos.toNat 0x102) := if_pos hfirst
  exact congrArg (runElement s) hbody

/-- Settles O33: the run is written entry by entry (`lensAt_writeRun`), and the end of the step moves the cursor and the
counters only. -/
theorem codeLengthSymbolsFillLens : Obligations.CodeLengthSymbolsFillLens := by
  intro s i v r hrun hlt htotal hlens
  refine ⟨_, exec_lengthRun_of_lt hrun hlt, countersFollow_counterUpdate s _ rfl rfl,
    writeRun_lidx_toNat v (by omega), (setRun_length ..).trans hlens, fun k => ?_, rfl⟩
  exact lensAt_writeRun v (by omega) k

/-- Settles O34: the raises of `exec_clRepeatPrev_of_first` and `exec_lengthRun_of_gt`. -/
theorem codeLengthSymbolErrors : Obligations.CodeLengthSymbolErrors :=
  ⟨fun _ r hfirst => ⟨_, exec_clRepeatPrev_of_first r hfirst, raised_raiseError ..⟩,
    fun _ _ _ _ hrun hgt => ⟨_, exec_lengthRun_of_gt hrun hgt, raised_raiseError ..⟩⟩

end Sys2Proof.Machine

/-! # Proofs about the window and the history (42_lzwindow.md)

First retention, then what the history is to every rule: a rule reads it through the visible history only, and leaves
it alone unless it finishes the entry. The two statements about instructions and steps follow from that. -/

namespace Sys2Proof.Machine

/-! ## Retention (42 R218) -/

/-- Settles O42: the bounded retention drops the first members (`retainLoop_spec`), and its last drop left
at least `r` bytes. -/
theorem retainKeepsTheNewestBytes : Obligations.RetainKeepsTheNewestBytes := by
  refine ⟨fun h => rfl, fun r h => ?_⟩
  obtain ⟨n, hretain, hle, hlt, henough, hstop⟩ := retainLoop_spec r h
  have hdropped : h.length - (h.drop n).length = n := by rw [List.length_drop]; omega
  rw [retain, hretain, hdropped]
  refine ⟨⟨h.take n, (List.take_append_drop n h).symm⟩, fun hne => ?_, ?_, ?_, henough⟩
  · exact List.ne_nil_of_length_pos (by rw [List.length_drop]; exact Nat.sub_pos_of_lt (hlt hne))
  · cases n with
    | zero => exact Nat.min_le_right _ _
    | succ k => exact (Nat.min_le_left _ _).trans (henough k (Nat.lt_succ_self k))
  · rwa [List.tail_drop]

/-! ## A state with another history -/

/-- The state with `l` in the place of HIST. -/
def withHistory (l : List (List Byte)) (s : State) : State := { s with hist := l }

/-- A history that the entry cannot tell from its own: the same one, or any if the entry is not solid (42 R211). -/
def SeenAlike (l : List (List Byte)) (s : State) : Prop := s.solid = true → l = s.hist

namespace SeenAlike

variable {l : List (List Byte)} {s : State}

/-- HB is the same (42 R211). -/
theorem visibleHistory (h : SeenAlike l s) : visibleHistory (withHistory l s) = visibleHistory s := by
  cases hs : s.solid with
  | true => rw [h hs]; rfl
  | false => simp [Machine.visibleHistory, withHistory, hs]

/-- The logical space is the same (42 R213). -/
theorem logical (h : SeenAlike l s) (a : Nat) : logical (withHistory l s) a = logical s a := by
  cases hs : s.solid with
  | true => rw [h hs]; rfl
  | false => simp [Machine.logical, Machine.visibleHistory, withHistory, hs]; rfl

/-- A copy takes the same bytes (42 R214). -/
theorem copyLoop (h : SeenAlike l s) (dist k : Nat) :
    copyLoop dist k (withHistory l s) = withHistory l (copyLoop dist k s) := by
  induction k generalizing s with
  | zero => rfl
  | succ k ih =>
    rw [Machine.copyLoop, Machine.copyLoop, h.logical, h.visibleHistory]
    exact ih (s := putByte _ s) h

end SeenAlike

/-! ## What a rule does to the history -/

/-- Two rules answer the same raise, or states that `R` relates. -/
inductive ResultsRelated (R : State → State → Prop) : Except Raise State → Except Raise State → Prop where
  | ok {t t' : State} (h : R t t') : ResultsRelated R (.ok t) (.ok t')
  | error (r : Raise) : ResultsRelated R (.error r) (.error r)

theorem ResultsRelated.ite_of {R : State → State → Prop} {c : Prop} [Decidable c] {x x' y y' : Except Raise State}
    (hx : c → ResultsRelated R x x') (hy : ¬ c → ResultsRelated R y y') :
    ResultsRelated R (if c then x else y) (if c then x' else y') := by
  split
  · exact hx ‹_›
  · exact hy ‹_›

theorem ResultsRelated.ite {R : State → State → Prop} {c : Prop} [Decidable c] {x x' y y' : Except Raise State}
    (hx : ResultsRelated R x x') (hy : ResultsRelated R y y') :
    ResultsRelated R (if c then x else y) (if c then x' else y') :=
  .ite_of (fun _ => hx) (fun _ => hy)

/-- Two outcomes are the same refusal, or next states that `R` relates. -/
inductive OutcomesRelated (R : State → State → Prop) :
    Host.Outcome State Fault Refusal → Host.Outcome State Fault Refusal → Prop where
  | next {t t' : State} (h : R t t') : OutcomesRelated R (.next t) (.next t')
  | refused (r : Refusal) : OutcomesRelated R (.refused r) (.refused r)

theorem OutcomesRelated.mono {R R' : State → State → Prop} (hR : ∀ t t', R t t' → R' t t')
    {o o' : Host.Outcome State Fault Refusal} (h : OutcomesRelated R o o') : OutcomesRelated R' o o' := by
  cases h with
  | next h => exact .next (hR _ _ h)
  | refused r => exact .refused r

/-- A next state on one side is a next state on the other. -/
theorem OutcomesRelated.exists_next {R : State → State → Prop} {t : State} {o : Host.Outcome State Fault Refusal}
    (h : OutcomesRelated R (.next t) o) : ∃ t', o = .next t' ∧ R t t' := by
  cases h with
  | next h => exact ⟨_, rfl, h⟩

/-- `t` has the history `k` still, and `t'` is `t` with `l` in its place. -/
def KeepsHistory (k l : List (List Byte)) (t t' : State) : Prop := t.hist = k ∧ t' = withHistory l t

/-- The history `k` with Out[0 .. `us` - 1] as its newest member, after retention (42 R217, R218). -/
def frozenHistory (us : Word) (k : List (List Byte)) (t : State) : List (List Byte) :=
  retain t.cfg.histRetain (k ++ [outSlice t us.toNat])

/-- What the end of an entry makes of a state whose output is complete (43 R257). -/
def finished (s : State) : State :=
  { freeze s with
    evlog := s.evlog ++ [.extract s.filesDone s.usize]
    filesDone := BitVec.ofNat 32 (s.filesDone.toNat + 1)
    state := .done
    dstate := .none }

/-- What a rule of an entry of `us` bytes does that starts from the history `k` and answers `t`, and what it does from
`l`: the history stays, or the finished entry is frozen onto it (42 R220). -/
inductive HistoryStep (us : Word) (k l : List (List Byte)) (t t' : State) : Prop where
  | keeps (h : KeepsHistory k l t t')
  | freezes (hdone : t.state = .done) (hhist : t.hist = frozenHistory us k t)
      (h : t' = withHistory (frozenHistory us l t) t)

namespace HistoryStep

variable {us : Word} {k l : List (List Byte)} {t t' : State}

theorem hist_eq (h : HistoryStep us k l t t') : t.hist = k ∨ (t.state = .done ∧ t.hist = frozenHistory us k t) := by
  cases h with
  | keeps h => exact .inl h.1
  | freezes hdone hhist _ => exact .inr ⟨hdone, hhist⟩

theorem exists_withHistory (h : HistoryStep us k l t t') : ∃ l', t' = withHistory l' t := by
  cases h with
  | keeps h => exact ⟨l, h.2⟩
  | freezes _ _ h => exact ⟨_, h⟩

/-- The end of an engine step writes the cursor and the counters (43 R241, 44 R312). -/
theorem endOfElement (h : HistoryStep us k l t t') :
    HistoryStep us k l (counterUpdate (commitCursor t)) (counterUpdate (commitCursor t')) := by
  cases h with
  | keeps h =>
    obtain ⟨hhist, rfl⟩ := h
    exact .keeps ⟨hhist, rfl⟩
  | freezes hdone hhist h =>
    subst h
    exact .freezes hdone hhist rfl

end HistoryStep

/-- A rule's answers from `s` and from `s` with the history `l`. -/
def HistoryRule (l : List (List Byte)) (s : State) : Except Raise State → Except Raise State → Prop :=
  ResultsRelated (HistoryStep s.usize s.hist l)

namespace HistoryRule

variable (l : List (List Byte)) (s : State)

theorem keep (t : State) (h : t.hist = s.hist) : HistoryRule l s (.ok t) (.ok (withHistory l t)) :=
  .ok (.keeps ⟨h, rfl⟩)

theorem outAppend (b : Byte) : HistoryRule l s (outAppend b s) (outAppend b (withHistory l s)) :=
  .ite (.error _) (keep l s (putByte b s) rfl)

/-- The one rule that reads the history, as far as it is visible (42 R211, R214). -/
theorem outCopy (h : SeenAlike l s) (len dist : Nat) :
    HistoryRule l s (outCopy len dist s) (outCopy len dist (withHistory l s)) := by
  simp only [Machine.outCopy, visible, h.visibleHistory, h.copyLoop]
  refine .ite (.error _) (.ite (.error _) (keep l s _ ?_))
  rw [copyLoop_frame]

theorem distanceField (h : SeenAlike l s) (d x : Nat) :
    HistoryRule l s (distanceField d x s) (distanceField d x (withHistory l s)) :=
  .ite (.error _) (outCopy l s h _ _)

theorem matchField (h : SeenAlike l s) (sym e d x : Nat) :
    HistoryRule l s (matchField sym e d x s) (matchField sym e d x (withHistory l s)) :=
  distanceField l { s with mlen := BitVec.ofNat 9 (matchLength sym e) } h d x

/-- The one rule that writes the history: with all of the output there, Out[0 .. USIZE - 1] is frozen (43 R257). -/
theorem finish : HistoryRule l s (finish s) (finish (withHistory l s)) := by
  refine .ite_of (fun _ => .error _) fun hfull => ?_
  have hfrozen (k : List (List Byte)) :
      frozenHistory s.usize k (finished s) = retain s.cfg.histRetain (k ++ [outSlice s s.outPtr.toNat]) := by
    rw [not_not.1 hfull]
    rfl
  have hother : finished (withHistory l s) = withHistory (frozenHistory s.usize l (finished s)) (finished s) := by
    rw [hfrozen]
    rfl
  exact .ok (.freezes rfl (hfrozen s.hist).symm hother)

theorem endOfBlock : HistoryRule l s (endOfBlock s) (endOfBlock (withHistory l s)) :=
  .ite (finish l s) (keep l s { s with dstate := .blkHdr } rfl)

theorem storedHeader (len nlen : BitVec 16) :
    HistoryRule l s (storedHeader len nlen s) (storedHeader len nlen (withHistory l s)) :=
  .ite (.error _) (.ite (endOfBlock l { s with storedRem := len })
    (keep l s { s with storedRem := len, dstate := .storedData } rfl))

theorem storedByte (b : Byte) : HistoryRule l s (storedByte b s) (storedByte b (withHistory l s)) := by
  rcases Nat.lt_or_ge s.outPtr.toNat s.usize.toNat with hroom | hfull
  · rw [Machine.storedByte, Machine.storedByte, outAppend_ok b s hroom, outAppend_ok b (withHistory l s) hroom]
    exact .ite (endOfBlock l (countStored (putByte b s))) (keep l s (countStored (putByte b s)) rfl)
  · rw [Machine.storedByte, Machine.storedByte, outAppend_full b s hfull, outAppend_full b (withHistory l s) hfull]
    exact .error _

theorem finishIfFull : HistoryRule l s (finishIfFull s) (finishIfFull (withHistory l s)) :=
  .ite (finish l s) (keep l s s rfl)

theorem rawByte (b : Byte) : HistoryRule l s (rawByte b s) (rawByte b (withHistory l s)) := by
  refine .ite_of (fun hroom => ?_) fun _ => finishIfFull l s
  rw [outAppend_ok b s hroom, outAppend_ok b (withHistory l s) hroom]
  exact finishIfFull l (putByte b s)

theorem dynamicCounts (n d c : Nat) :
    HistoryRule l s (dynamicCounts n d c s) (dynamicCounts n d c (withHistory l s)) :=
  .ite (.error _) (.ite (.error _) (keep l s _ rfl))

theorem buildCl (ls : List (BitVec 3)) : HistoryRule l s (buildCl ls s) (buildCl ls (withHistory l s)) := by
  have hpos : (withHistory l s).pos = s.pos := rfl
  rw [Machine.buildCl, Machine.buildCl, hpos]
  cases huffBuild 0 (clLengths ls) Config.maxBitsCl s.pos.toNat with
  | error r => exact .error r
  | ok cl => exact keep l s _ rfl

theorem buildDynamic : HistoryRule l s (buildDynamic s) (buildDynamic (withHistory l s)) := by
  have hpos : (withHistory l s).pos = s.pos := rfl
  have hlit : litLengths (withHistory l s) = litLengths s := rfl
  have hdist : distLengths (withHistory l s) = distLengths s := rfl
  rw [Machine.buildDynamic, Machine.buildDynamic, hpos, hlit, hdist]
  refine .ite (.error _) ?_
  cases huffBuild 1 (litLengths s) Config.maxBitsLitDist s.pos.toNat with
  | error r => exact .error r
  | ok lt =>
    cases huffBuild 2 (distLengths s) Config.maxBitsLitDist s.pos.toNat with
    | error r => exact .error r
    | ok dt => exact keep l s _ rfl

theorem applyRun (v : BitVec 4) (r : Nat) : HistoryRule l s (applyRun v r s) (applyRun v r (withHistory l s)) :=
  .ite (.error _) (.ite (buildDynamic l (writeRun v r s)) (keep l s (writeRun v r s) rfl))

theorem repeatPrevious (r : Nat) : HistoryRule l s (repeatPrevious r s) (repeatPrevious r (withHistory l s)) :=
  .ite (.error _) (applyRun l s _ _)

end HistoryRule

/-! ## Commands (44 R300-R308) -/

/-- A command's answers from `s` and from `s` with the history `l`: the history stays. -/
def HistoryKept (l : List (List Byte)) (s : State) : Except Raise State → Except Raise State → Prop :=
  ResultsRelated (KeepsHistory s.hist l)

namespace HistoryKept

variable (l : List (List Byte)) (s : State)

theorem keep (t : State) (h : t.hist = s.hist) : HistoryKept l s (.ok t) (.ok (withHistory l t)) :=
  .ok ⟨h, rfl⟩

theorem illegalCommand (reason op : Nat) :
    HistoryKept l s (illegalCommand reason op s) (illegalCommand reason op (withHistory l s)) :=
  .error _

theorem startEntry (a0 cs us : Word) :
    HistoryKept l s (startEntry a0 cs us s) (startEntry a0 cs us (withHistory l s)) :=
  .ite (.error _) (.ite (.error _) (.ite (.error _) (.ite (.error _) (.ite (.error _)
    (keep l s (beginEntry (startMethod a0) (startSolid a0) cs us s) rfl)))))

/-- Nor does a restart after an underrun change the history (42 R220, 44 R307). -/
theorem appendInput (k : Word) : HistoryKept l s (appendInput k s) (appendInput k (withHistory l s)) :=
  .ite (.error _) (.ite (.error _) (.ite (keep l s (resume (deliver k.toNat s)) rfl) (keep l s (deliver k.toNat s) rfl)))

end HistoryKept

/-! ## Instructions -/

section
variable (l : List (List Byte)) (s : State)

theorem raiseUnderrun_withHistory (r a : Nat) :
    raiseUnderrun r a (withHistory l s) = withHistory l (raiseUnderrun r a s) := by
  rw [raiseUnderrun, raiseUnderrun, apply_ite (withHistory l)]
  rfl

/-- An error leaves the history alone (42 R220, 60 R342). -/
theorem takeRaise_keepsHistory (r : Raise) :
    OutcomesRelated (KeepsHistory s.hist l) (takeRaise r s) (takeRaise r (withHistory l s)) := by
  cases r with
  | error c a x => exact .next ⟨rfl, rfl⟩
  | underrun q a =>
    refine .next ⟨?_, raiseUnderrun_withHistory l s q a⟩
    unfold raiseUnderrun
    split <;> rfl
  | outside u => exact .refused u.refusal

variable {l s}

theorem runElement_historyStep {x y : Except Raise State} (h : HistoryRule l s x y) :
    OutcomesRelated (HistoryStep s.usize s.hist l) (runElement s x) (runElement (withHistory l s) y) := by
  cases h with
  | ok h => exact .next h.endOfElement
  | error r => exact (takeRaise_keepsHistory l s r).mono fun _ _ => .keeps

theorem runCommand_keepsHistory {x y : Except Raise State} (h : HistoryKept l s x y) :
    OutcomesRelated (KeepsHistory s.hist l) (runCommand s x) (runCommand (withHistory l s) y) := by
  cases h with
  | ok h => exact .next h
  | error r => exact takeRaise_keepsHistory l s r

/-- Every command but OPEN and CLOSE keeps the history, whatever it holds (42 R220). -/
theorem exec_command_keepsHistory {i : Instr} (hi : i.isCommand = true) (hopen : i ≠ .openSession)
    (hclose : i ≠ .closeSession) :
    OutcomesRelated (KeepsHistory s.hist l) (exec i s) (exec i (withHistory l s)) := by
  cases i
  case nop => exact runCommand_keepsHistory (.keep l s s rfl)
  case openSession => exact absurd rfl hopen
  case closeSession => exact absurd rfl hclose
  case startEntry => exact runCommand_keepsHistory (.startEntry l s _ _ _)
  case appendInput => exact runCommand_keepsHistory (.appendInput l s _)
  case illegalOpcode op => exact runCommand_keepsHistory (.illegalCommand l s _ _)
  all_goals contradiction

/-- Every element keeps the history or freezes the finished entry onto it, and sees no more of it than is visible
(42 R211, R220). -/
theorem exec_element_historyStep {i : Instr} (hi : i.isCommand = false) (h : SeenAlike l s) :
    OutcomesRelated (HistoryStep s.usize s.hist l) (exec i s) (exec i (withHistory l s)) := by
  cases hm : i.matchFields with
  | some f =>
    rw [exec_match (sym := f.1) (e := f.2.1) (d := f.2.2.1) (x := f.2.2.2) hm s, exec_match hm]
    exact runElement_historyStep (.matchField l s h _ _ _ _)
  | none =>
    cases hd : i.distanceFields with
    | some f =>
      rw [exec_distance (d := f.1) (x := f.2) hd s, exec_distance hd]
      exact runElement_historyStep (.distanceField l s h _ _)
    | none =>
      cases i with
      | blockStored f => exact runElement_historyStep (.keep l s (latchBlock f 0 .storedHdr s) rfl)
      | blockFixed f => exact runElement_historyStep (.keep l s (loadFixed (latchBlock f 1 .huffData s)) rfl)
      | blockDynamic f => exact runElement_historyStep (.keep l s (latchBlock f 2 .dynCounts s) rfl)
      | blockReserved f => exact runElement_historyStep (.error (.error .invalidBlockType s.pos.toNat 3))
      | storedHdr len nlen => exact runElement_historyStep (.storedHeader l s _ _)
      | storedByte b => exact runElement_historyStep (.storedByte l s b)
      | dynCounts n d c => exact runElement_historyStep (.dynamicCounts l s _ _ _)
      | dynCllen ls => exact runElement_historyStep (.buildCl l s ls)
      | clLen n => exact runElement_historyStep (.applyRun l s _ _)
      | clRepeatPrev r => exact runElement_historyStep (.repeatPrevious l s _)
      | clRepeatZeroShort r => exact runElement_historyStep (.applyRun l s _ _)
      | clRepeatZeroLong r => exact runElement_historyStep (.applyRun l s _ _)
      | lit b => exact runElement_historyStep (.outAppend l s b)
      | eob => exact runElement_historyStep (.endOfBlock l s)
      | litlenInvalid286 => exact runElement_historyStep (.error (.error .invalidLitlenSymbol s.pos.toNat 286))
      | litlenInvalid287 => exact runElement_historyStep (.error (.error .invalidLitlenSymbol s.pos.toNat 287))
      | rawByte b => exact runElement_historyStep (.rawByte l s b)
      | _ => simp [Instr.matchFields, Instr.distanceFields, Instr.isCommand] at hm hd hi

end

/-- OPEN and CLOSE empty the history, whatever it held (42 R220, 44 R302, R303). -/
theorem exec_session {i : Instr} (hi : i = .openSession ∨ i = .closeSession) (l : List (List Byte)) (s : State) :
    ∃ t, t.hist = [] ∧ exec i s = .next t ∧ exec i (withHistory l s) = .next t := by
  rcases hi with rfl | rfl
  · exact ⟨sessionReset .idle s, rfl, rfl, rfl⟩
  · exact ⟨sessionReset .closed s, rfl, rfl, rfl⟩

/-- Settles O44: OPEN and CLOSE forget the history, the other commands do not read it, and to an element of a non-solid
entry every history looks alike. -/
theorem nonSolidEntryIgnoresTheHistory : Obligations.NonSolidEntryIgnoresTheHistory := by
  intro i s t l hsolid hexec
  have hseen : SeenAlike l s := fun h => absurd h (by simp [hsolid])
  by_cases hsession : i = .openSession ∨ i = .closeSession
  · obtain ⟨u, _, hu, hother⟩ := exec_session hsession l s
    obtain rfl : u = t := by simpa [hu] using hexec
    exact ⟨u.hist, hother⟩
  obtain ⟨hopen, hclose⟩ := not_or.1 hsession
  have hout : OutcomesRelated (HistoryStep s.usize s.hist l) (.next t) (exec i (withHistory l s)) := by
    rw [← hexec]
    cases hi : i.isCommand with
    | true => exact (exec_command_keepsHistory hi hopen hclose).mono fun _ _ => .keeps
    | false => exact exec_element_historyStep hi hseen
  obtain ⟨t', hother, hstep⟩ := hout.exists_next
  obtain ⟨l', rfl⟩ := hstep.exists_withHistory
  exact ⟨l', hother⟩

/-! ## The engine's element is no command (30 R90) -/

theorem isCommand_of_matchFields {i : Instr} {f : Nat × Nat × Nat × Nat} (h : i.matchFields = some f) :
    i.isCommand = false := by
  cases i <;> simp [Instr.matchFields] at h <;> rfl

theorem isCommand_of_distanceFields {i : Instr} {f : Nat × Nat} (h : i.distanceFields = some f) :
    i.isCommand = false := by
  cases i <;> simp [Instr.distanceFields] at h <;> rfl

/-- Commands come from CMD words only: no decoder of the stream answers one, in either bit order. -/
theorem decodeElement_isCommand {c : DecodeCtx} {start p q : Nat} {st : Stream} {i : Instr}
    (h : decodeElement c start st p = .ok (i, q)) : i.isCommand = false := by
  unfold decodeElement at h
  cases hd : c.dstate <;> simp only [hd] at h
  case none => cases h
  case raw =>
    cases hfull : c.outFull with
    | true =>
      rw [hfull] at h
      cases h
      rfl
    | false =>
      rw [hfull] at h
      obtain ⟨_, _, h⟩ := except_bind_ok h
      cases h
      rfl
  case blkHdr =>
    obtain ⟨_, _, f, rfl | rfl | rfl | rfl⟩ := decodeBlockHeader_ok h <;> rfl
  case storedHdr =>
    obtain ⟨_, _, len, nlen, rfl⟩ := decodeStoredHdr_ok h
    rfl
  case storedData =>
    obtain ⟨_, _, h⟩ := except_bind_ok h
    cases h
    rfl
  case dynCounts =>
    obtain ⟨_, _, l, d, n, rfl⟩ := decodeDynCounts_ok h
    rfl
  case dynCllen =>
    obtain ⟨_, _, ls, rfl, _⟩ := decodeDynCllen_ok h
    rfl
  case dynLens =>
    obtain ⟨_, _, ⟨n, rfl⟩ | ⟨r, rfl⟩ | ⟨r, rfl⟩ | ⟨r, rfl⟩⟩ := decodeClSymbol_ok h <;> rfl
  case huffData =>
    split at h
    · obtain ⟨⟨⟨d, x⟩, _⟩, hread, h⟩ := except_bind_ok h
      obtain ⟨_, _, hd, hx⟩ := readDistance_ok hread
      cases h
      exact isCommand_of_distanceFields (distanceInstr_fields d x hd hx)
    · obtain ⟨_, _, ⟨b, rfl⟩ | rfl | rfl | rfl | ⟨sym, e, d, x, hfields, _⟩⟩ := decodeData_ok h
      · rfl
      · rfl
      · rfl
      · rfl
      · exact isCommand_of_matchFields hfields

/-! ## Turns (42 R220) -/

/-- An engine turn keeps the history or, in RUN, finishes the entry and freezes it. -/
theorem hist_engineWork {s t : State} (ht : (engineWork s).outcome = .next t) :
    t.hist = s.hist ∨ (s.state = .run ∧ t.state = .done ∧ t.hist = frozenHistory s.usize s.hist t) := by
  by_cases hrun : s.state = .run
  · rcases engineWork_run s hrun with ⟨i, q, hfetch, e⟩ | ⟨r, _, e⟩ <;> rw [e] at ht
    · have hout := exec_element_historyStep (l := s.hist) (s := { s with npos := BitVec.ofNat 32 q })
        (decodeElement_isCommand hfetch) fun _ => rfl
      rw [← Work.outcome_run, ht] at hout
      obtain ⟨_, _, hstep⟩ := hout.exists_next
      exact hstep.hist_eq.imp_right fun hfrozen => ⟨hrun, hfrozen⟩
    · have hout := takeRaise_keepsHistory s.hist s r
      rw [← Work.outcome_settled (takeRaise r s), ht] at hout
      obtain ⟨_, _, hkept, _⟩ := hout.exists_next
      exact .inl hkept
  · rw [engineWork_idle s hrun] at ht
    cases ht
    exact .inl rfl

/-- A whole-word write to CMD is the command that the host issues (44 R300). -/
theorem hist_registerWriteWork {offset size : Nat} {w : Word} {s t : State}
    (hτ : ¬ (Turn.regWrite offset size w).startsAnew) (ht : (registerWriteWork offset size w s).outcome = .next t) :
    t.hist = s.hist := by
  rcases registerWriteWork_cases offset size w s with ⟨why, _, e⟩ | ⟨hword, hcmd, e⟩ | ⟨_, _, e⟩ <;> rw [e] at ht
  · cases ht
    rfl
  · have hissues : (Turn.regWrite offset size w).issues = some w := if_pos ⟨hword, hcmd⟩
    have hout := exec_command_keepsHistory (l := s.hist) (s := s) (decodeCommand_isCommand w)
      (fun hopen => hτ (.inr ⟨w, hissues, .inl hopen⟩)) fun hclose => hτ (.inr ⟨w, hissues, .inr hclose⟩)
    rw [← Work.outcome_run, ht] at hout
    obtain ⟨_, _, hkept, _⟩ := hout.exists_next
    exact hkept
  · cases ht
    rcases writeRegister_cases (offset / 4) w s with e | e | e | e <;> rw [e]

/-- A turn that does not start anew keeps the history, but for an engine turn that finishes the entry. -/
theorem hist_turnWork {τ : Turn} (hτ : ¬ τ.startsAnew) {s t : State} (ht : (turnWork τ s).outcome = .next t) :
    t.hist = s.hist ∨ (τ = .engine ∧ s.state = .run ∧ t.state = .done ∧ t.hist = frozenHistory s.usize s.hist t) := by
  cases τ with
  | engine => exact (hist_engineWork ht).imp_right fun hfrozen => ⟨rfl, hfrozen⟩
  | hardReset => exact absurd (.inl rfl) hτ
  | regWrite offset size w => exact .inl (hist_registerWriteWork hτ ht)
  | regRead offset size =>
    cases ht
    rcases readRegister_cases offset size s with ⟨why, e⟩ | ⟨v, e⟩ <;> rw [e] <;> exact .inl rfl
  | inWrite a b =>
    cases ht
    rcases writeIn_cases a b s with ⟨why, e⟩ | ⟨_, _, _, _, e⟩ <;> rw [e] <;> exact .inl rfl
  | outRead a =>
    cases ht
    rcases readOut_cases a s with ⟨_, e⟩ | ⟨_, _, _, e⟩ | ⟨_, _, e⟩ <;> rw [e] <;> exact .inl rfl
  | outWrite a b =>
    cases ht
    obtain ⟨why, e⟩ := writeOut_eq a b s
    rw [e]
    exact .inl rfl

/-- OPEN, CLOSE and a hardware reset empty the history (42 R220, 70 R380). -/
theorem hist_turnWork_of_startsAnew {τ : Turn} (hτ : τ.startsAnew) {s t : State}
    (ht : (turnWork τ s).outcome = .next t) : t.hist = [] := by
  rcases hτ with rfl | ⟨w, hissues, hsession⟩
  · cases ht
    rfl
  · obtain ⟨u, hu, hexec, _⟩ := exec_session hsession s.hist s
    cases τ with
    | regWrite offset size v =>
      obtain ⟨⟨hword, rfl⟩, hv⟩ := Option.ite_none_right_eq_some.1 hissues
      cases hv
      simp only [turnWork, registerWriteWork, hword, if_true, Work.outcome_run, hexec] at ht
      cases ht
      exact hu
    | _ => cases hissues

/-- Settles O43, turn by turn; the bound of the retention is a parameter, which no engine turn writes. -/
theorem historyLivesForOneSession : Obligations.HistoryLivesForOneSession := by
  intro s t hstep
  rw [step_eq_turnWork] at hstep
  refine ⟨fun hnew => hist_turnWork_of_startsAnew hnew hstep, fun hnew => (hist_turnWork hnew hstep).imp_right ?_⟩
  rintro ⟨hturn, hrun, hdone, hhist⟩
  have hcfg : t.cfg = s.cfg := (OutcomeLogs.turnWork (by simp [hturn]) _ t hstep).1
  exact ⟨hturn, hrun, hdone, by rw [hhist, frozenHistory, hcfg]⟩

end Sys2Proof.Machine

/-! # Proofs about the inflate driver (43_inflate.md)

What is read first (the bytes of the spec's examples, and that more input changes no element that was read), then the
engine's turn, and then the elements in the order of 43: block headers, the end of a block, stored and method-0 bytes,
literals, the dynamic header, matches and distance fields. -/

namespace Sys2Proof

open Machine

/-! ## Bytes written out from the spec (95 P1, V-L2-E1, E7, I1) -/

theorem Machine.Buildable.builtFrom {lens : List Nat} {m : Nat} (h : Buildable lens m) :
    BuiltFrom (tableOf lens m) lens.length m :=
  ⟨lens, rfl, h.lengths, h.legal, rfl⟩

theorem builtFrom_tFixLit : BuiltFrom tFixLit 288 15 :=
  length_fixedLitLengths ▸ buildable_fixedLitLengths.builtFrom

theorem builtFrom_tFixDist : BuiltFrom tFixDist 32 15 :=
  List.length_replicate (n := 32) (a := 5) ▸ buildable_fixedDistLengths.builtFrom

/-- What selects the next element in a fixed block (43 R243). -/
def fixedBlockCtx : DecodeCtx :=
  { dstate := .huffData, inMatch := false, hclen := 0, lidx := 0, outFull := false, tCl := .unbuilt 19,
    tLit := tFixLit, tDist := tFixDist }

/-- The bits from position 3 of `4B 4C` are the fixed code 0x91 of the literal 0x61 (30 R102). -/
theorem decodeData_literal_bytes :
    decodeData tFixLit tFixDist (streamOfBytes [0x4B, 0x4C, 0x02, 0x00]) 3 = .ok (.lit 0x61, 11) := by
  obtain ⟨hlow, _⟩ := fixedCodesOfEverySymbol
  obtain ⟨hlen, hcode⟩ := hlow 0x61 (by omega)
  have hbits : symbolBits tFixLit 0x61 = codeBits 8 0x91 := by rw [symbolBits, hlen, hcode]
  have hcarries : Carries (streamOfBytes [0x4B, 0x4C, 0x02, 0x00]) 3 (codeBits 8 0x91) :=
    ⟨rfl, by unfold Delivers; decide⟩
  have hread := decodeData_lit (c := fixedBlockCtx) builtFrom_tFixLit 0x61 (hlen.trans_ne (by decide))
    (hbits.symm ▸ hcarries)
  exact hread.trans (congrArg (fun bs : List Bool => Except.ok (Instr.lit 0x61, 3 + bs.length)) hbits)

/-- The bits from position 19 of `73 74 82 40 00` are the fixed codes of length symbol 260 and distance symbol 1, which
have no extra bits (30 R100-R103). -/
theorem decodeData_match_bytes :
    decodeData tFixLit tFixDist (streamOfBytes [0x73, 0x74, 0x82, 0x40, 0x00]) 19 = .ok (.matchL260 1 0, 31) := by
  obtain ⟨_, _, hlow, _, hdist⟩ := fixedCodesOfEverySymbol
  obtain ⟨hlen, hcode⟩ := hlow 260 (by omega) (by omega)
  obtain ⟨hdlen, hdcode⟩ := hdist 1 (by omega)
  have hbits : matchBits fixedBlockCtx 260 0 1 0 = codeBits 7 4 ++ codeBits 5 1 := by
    simp [matchBits, fixedBlockCtx, symbolBits, hlen, hcode, hdlen, hdcode, lengthExtra, lengthTable, distanceExtra,
      distanceTable, fieldBits]
  have hcarries : Carries (streamOfBytes [0x73, 0x74, 0x82, 0x40, 0x00]) 19 (codeBits 7 4 ++ codeBits 5 1) :=
    ⟨rfl, by unfold Delivers; decide⟩
  have hread := decodeData_match (c := fixedBlockCtx) builtFrom_tFixLit builtFrom_tFixDist (s := 260) (e := 0) (d := 1)
    (x := 0) (by omega) (by omega) (by decide) (by omega) (by decide) (hlen.trans_ne (by decide))
    (hdlen.trans_ne (by decide)) (hbits.symm ▸ hcarries)
  exact hread.trans (congrArg (fun bs : List Bool => Except.ok (Instr.matchL260 1 0, 19 + bs.length)) hbits)

/-- Settles O2: the elements of fixed-width fields by reading them, the two data elements by their fixed codes. -/
theorem specBytesDecode : Obligations.SpecBytesDecode :=
  ⟨rfl, rfl, rfl, rfl, decodeData_literal_bytes, decodeData_match_bytes⟩

end Sys2Proof

namespace Sys2Proof

open Machine

/-! ## More input delivered (43 R261) -/

/-- The stream with `m` bytes delivered. -/
def withRecv (m : Nat) (st : Stream) : Stream := { st with recv := m }

/-- The second result is the first, unless the first is an underrun. -/
def SameUnlessUnderrun {α : Type} (x y : Except Raise α) : Prop := y = x ∨ ∃ n a, x = .error (.underrun n a)

namespace SameUnlessUnderrun

section
variable {α β : Type} {x y : Except Raise α}

theorem refl (x : Except Raise α) : SameUnlessUnderrun x x := .inl rfl

theorem underrun (n a : Nat) (y : Except Raise α) : SameUnlessUnderrun (.error (.underrun n a)) y := .inr ⟨n, a, rfl⟩

theorem bind {f g : α → Except Raise β} (h : SameUnlessUnderrun x y) (hfg : ∀ a, SameUnlessUnderrun (f a) (g a)) :
    SameUnlessUnderrun (x >>= f) (y >>= g) := by
  rcases h with rfl | ⟨n, a, rfl⟩
  · cases y with
    | ok a => exact hfg a
    | error r => exact refl _
  · exact underrun n a _

theorem ite {c : Prop} [Decidable c] {x' y' : Except Raise α} (h : SameUnlessUnderrun x y)
    (h' : SameUnlessUnderrun x' y') : SameUnlessUnderrun (if c then x else x') (if c then y else y') := by
  split
  · exact h
  · exact h'

/-- What was answered is answered still. -/
theorem eq_ok (h : SameUnlessUnderrun x y) {a : α} (hx : x = .ok a) : y = .ok a := by
  rcases h with rfl | ⟨n, b, hunder⟩
  · exact hx
  · cases hunder.symm.trans hx

/-- An error other than an underrun is raised still. -/
theorem eq_error (h : SameUnlessUnderrun x y) {c : ErrCode} {a v : Nat} (hx : x = .error (.error c a v)) :
    y = .error (.error c a v) := by
  rcases h with rfl | ⟨n, b, hunder⟩
  · exact hx
  · cases hunder.symm.trans hx

end

theorem lsbValue_withRecv (m : Nat) (st : Stream) (n p : Nat) : lsbValue (withRecv m st) n p = lsbValue st n p := by
  induction n generalizing p with
  | zero => rfl
  | succ n ih => rw [lsbValue, lsbValue, ih]; rfl

theorem msbValue_withRecv (m : Nat) (st : Stream) (n p : Nat) : msbValue (withRecv m st) n p = msbValue st n p := by
  induction n generalizing p with
  | zero => rfl
  | succ n ih => rw [msbValue, msbValue, ih]; rfl

/-- The value of a read does not depend on how much is delivered. -/
theorem streamValue_withRecv (m : Nat) (st : Stream) (n p : Nat) :
    streamValue (withRecv m st) n p = streamValue st n p := by
  unfold streamValue
  rw [lsbValue_withRecv, msbValue_withRecv]
  rfl

section
variable {st : Stream} {m : Nat} (h : st.recv ≤ m)
include h

theorem avail_withRecv : st.avail ≤ (withRecv m st).avail := Nat.mul_le_mul_left 8 h

theorem readBits (n p : Nat) : SameUnlessUnderrun (readBits st n p) (readBits (withRecv m st) n p) := by
  have havail := avail_withRecv h
  rcases readBits_cases st n p with ⟨hwide, hread⟩ | ⟨_, _, hread⟩ | ⟨hn, hfits, hread⟩ <;> rw [hread]
  · rcases readBits_cases (withRecv m st) n p with ⟨_, hread'⟩ | ⟨hn, _⟩ | ⟨hn, _⟩
    · exact .inl hread'
    · omega
    · omega
  · exact underrun ..
  · rw [readBits_of_le _ n p hn (by omega), streamValue_withRecv]
    exact refl _

theorem readBytesAligned (n p : Nat) :
    SameUnlessUnderrun (readBytesAligned st n p) (readBytesAligned (withRecv m st) n p) := by
  have havail := avail_withRecv h
  rcases readBytesAligned_cases st n p with ⟨_, hread⟩ | ⟨hfits, hread⟩ <;> rw [hread]
  · exact underrun ..
  · rcases readBytesAligned_cases (withRecv m st) n p with ⟨hshort, _⟩ | ⟨_, hread'⟩
    · omega
    · exact .inl hread'

theorem readBytesShifted (n p : Nat) :
    SameUnlessUnderrun (readBytesShifted st n p) (readBytesShifted (withRecv m st) n p) := by
  have havail := avail_withRecv h
  unfold Machine.readBytesShifted
  split
  · exact underrun ..
  · rw [if_neg (by omega)]
    simp only [streamValue_withRecv]
    exact refl _

theorem readBytes (n p : Nat) : SameUnlessUnderrun (readBytes st n p) (readBytes (withRecv m st) n p) := by
  by_cases haligned : st.order = .lsb ∨ st.rarAlign = .skip ∨ p % 8 = 0
  · rw [readBytes_eq_aligned n haligned, readBytes_eq_aligned (st := withRecv m st) n haligned]
    exact readBytesAligned h n p
  · obtain ⟨ho, hr, hp⟩ : st.order = .msb ∧ st.rarAlign = .shifted ∧ p % 8 ≠ 0 := by
      cases ho : st.order <;> cases hr : st.rarAlign <;> simp_all
    rw [readBytes_eq_shifted n ho hr hp, readBytes_eq_shifted (st := withRecv m st) n ho hr hp]
    exact readBytesShifted h n p

theorem readOneByte (p : Nat) : SameUnlessUnderrun (readOneByte st p) (readOneByte (withRecv m st) p) := by
  have hbind (st : Stream) :
      Machine.readOneByte st p = Machine.readBytes st 1 p >>= fun a => .ok (a.1.headD 0, a.2) := by
    unfold Machine.readOneByte
    cases Machine.readBytes st 1 p <;> rfl
  rw [hbind, hbind]
  exact (readBytes h 1 p).bind fun _ => refl _

theorem huffLoop (t : HuffTable) (start k l code p : Nat) :
    SameUnlessUnderrun (huffLoop t st start k l code p) (huffLoop t (withRecv m st) start k l code p) := by
  induction k generalizing l code p with
  | zero => exact refl _
  | succ k ih =>
    simp only [Machine.huffLoop, readBit]
    rcases readBits h 1 p with hread | ⟨n, a, hread⟩ <;> rw [hread]
    · cases Machine.readBits st 1 p with
      | ok bq => exact .ite (refl _) (ih _ _ _)
      | error r => exact refl _
    · exact underrun ..

theorem huffDecode (t : HuffTable) (p : Nat) :
    SameUnlessUnderrun (huffDecode t st p) (huffDecode t (withRecv m st) p) :=
  .ite (huffLoop h t p _ _ _ p) (refl _)

theorem decodeBlockHeader (p : Nat) :
    SameUnlessUnderrun (decodeBlockHeader st p) (decodeBlockHeader (withRecv m st) p) :=
  (readBits h 1 p).bind fun (_, q) => (readBits h 2 q).bind fun _ => refl _

theorem decodeStoredHdr (p : Nat) : SameUnlessUnderrun (decodeStoredHdr st p) (decodeStoredHdr (withRecv m st) p) :=
  (readBits h 16 _).bind fun (_, q) => (readBits h 16 q).bind fun _ => refl _

theorem decodeStoredByte (p : Nat) : SameUnlessUnderrun (decodeStoredByte st p) (decodeStoredByte (withRecv m st) p) :=
  (readOneByte h p).bind fun _ => refl _

theorem decodeRawByte (full : Bool) (p : Nat) :
    SameUnlessUnderrun (decodeRawByte full st p) (decodeRawByte full (withRecv m st) p) :=
  .ite (refl _) ((readOneByte h p).bind fun _ => refl _)

theorem decodeDynCounts (p : Nat) : SameUnlessUnderrun (decodeDynCounts st p) (decodeDynCounts (withRecv m st) p) :=
  (readBits h 5 p).bind fun (_, q) => (readBits h 5 q).bind fun (_, r) => (readBits h 4 r).bind fun _ => refl _

theorem readLengths (n p : Nat) : SameUnlessUnderrun (readLengths st n p) (readLengths (withRecv m st) n p) := by
  induction n generalizing p with
  | zero => exact refl _
  | succ n ih => exact (readBits h 3 p).bind fun (_, q) => (ih q).bind fun _ => refl _

theorem decodeDynCllen (n p : Nat) : SameUnlessUnderrun (decodeDynCllen n st p) (decodeDynCllen n (withRecv m st) p) :=
  (readLengths h n p).bind fun _ => refl _

theorem decodeClSymbol (t : HuffTable) (lidx p : Nat) :
    SameUnlessUnderrun (decodeClSymbol t lidx st p) (decodeClSymbol t lidx (withRecv m st) p) :=
  (huffDecode h t p).bind fun (_, q) =>
    .ite (refl _) <| .ite (.ite (refl _) ((readBits h 2 q).bind fun _ => refl _)) <|
      .ite ((readBits h 3 q).bind fun _ => refl _) <| .ite ((readBits h 7 q).bind fun _ => refl _) (refl _)

theorem readDistance (t : HuffTable) (start p : Nat) :
    SameUnlessUnderrun (readDistance t start st p) (readDistance t start (withRecv m st) p) :=
  (huffDecode h t p).bind fun (_, q) => .ite (refl _) <| .ite (refl _) <| (readBits h _ q).bind fun _ => refl _

theorem decodeMatch (t : HuffTable) (s start p : Nat) :
    SameUnlessUnderrun (decodeMatch t s start st p) (decodeMatch t s start (withRecv m st) p) :=
  (readBits h _ p).bind fun (_, q) => (readDistance h t start q).bind fun _ => refl _

theorem decodeData (tLit tDist : HuffTable) (p : Nat) :
    SameUnlessUnderrun (decodeData tLit tDist st p) (decodeData tLit tDist (withRecv m st) p) :=
  (huffDecode h tLit p).bind fun (s, q) =>
    .ite (refl _) <| .ite (refl _) <| .ite (decodeMatch h tDist s p q) <| .ite (refl _) <| .ite (refl _) (refl _)

theorem decodeDistanceField (t : HuffTable) (start p : Nat) :
    SameUnlessUnderrun (decodeDistanceField t start st p) (decodeDistanceField t start (withRecv m st) p) :=
  (readDistance h t start p).bind fun _ => refl _

/-- Only an underrun can change when more input is delivered, whatever element is selected (60 R346). -/
theorem decodeElement (c : DecodeCtx) (start p : Nat) :
    SameUnlessUnderrun (decodeElement c start st p) (decodeElement c start (withRecv m st) p) := by
  unfold Sys2Proof.decodeElement
  cases c.dstate with
  | none => exact refl _
  | raw => exact decodeRawByte h c.outFull p
  | blkHdr => exact decodeBlockHeader h p
  | storedHdr => exact decodeStoredHdr h p
  | storedData => exact decodeStoredByte h p
  | dynCounts => exact decodeDynCounts h p
  | dynCllen => exact decodeDynCllen h c.hclen p
  | dynLens => exact decodeClSymbol h c.tCl c.lidx p
  | huffData => exact .ite (decodeDistanceField h c.tDist start p) (decodeData h c.tLit c.tDist p)

end

theorem fetchElement {s : State} {n : Word} (h : s.inRecv.toNat ≤ n.toNat) :
    SameUnlessUnderrun (fetchElement s) (fetchElement { s with inRecv := n }) :=
  decodeElement (st := streamOf s) h (decodeCtx s) s.pos.toNat (readPosition s)

end SameUnlessUnderrun

/-- Settles O59: every read is the same with more input but for an underrun, and so is every sequence of reads. -/
theorem moreInputKeepsEveryElement : Obligations.MoreInputKeepsEveryElement :=
  fun _ _ hmore =>
    have hsame := SameUnlessUnderrun.fetchElement hmore
    ⟨fun _ _ => hsame.eq_ok, fun _ _ _ => hsame.eq_error⟩

end Sys2Proof

namespace Sys2Proof.Machine

/-! ## The engine's turn (43 R241) -/

/-- An element that is read runs on the state before the step, its turn taken off the schedule and the reading position
after it. -/
theorem step_of_fetchElement_ok {s : State} {i : Instr} {q : Nat} (hrun : s.state = .run) (hturn : nextTurn s = .engine)
    (hfetch : fetchElement s = .ok (i, q)) :
    step s = exec i { s with sched := s.sched.tail, npos := BitVec.ofNat 32 q } := by
  rw [step_eq_turnWork, hturn]
  rcases engineWork_run { s with sched := s.sched.tail } hrun with ⟨i', q', hok, hwork⟩ | ⟨r, herr, _⟩
  · cases hok.symm.trans hfetch
    exact congrArg Work.outcome hwork
  · cases herr.symm.trans hfetch

/-- Settles O12: the fetch does not look at the schedule. -/
theorem stepRunsTheDecodedElement : Obligations.StepRunsTheDecodedElement :=
  fun _ _ _ => step_of_fetchElement_ok

/-! ## Block headers (43 R242, R243, R259) -/

/-- Settles O25: the rule of each header is its latches, and the end of the step moves the cursor and the counters. -/
theorem blockHeadersLatchAndSelect : Obligations.BlockHeadersLatchAndSelect := fun s _ =>
  ⟨⟨_, rfl, countersFollow_counterUpdate s _ rfl rfl, rfl⟩,
    ⟨_, rfl, countersFollow_counterUpdate s _ rfl rfl, rfl, rfl, rfl⟩,
    ⟨_, rfl, countersFollow_counterUpdate s _ rfl rfl, rfl⟩⟩

/-- Settles O26: the rule of the header is the raise. -/
theorem reservedBlockTypeRaises : Obligations.ReservedBlockTypeRaises :=
  fun _ _ => ⟨_, rfl, raised_raiseError ..⟩

/-! ## The end of a block and of an entry (43 R256, R257) -/

theorem ofNat_toNat_succ {w : Nat} (v : BitVec w) : BitVec.ofNat w (v.toNat + 1) = v + 1 := by
  rw [BitVec.ofNat_add, BitVec.ofNat_toNat, BitVec.setWidth_eq]
  rfl

/-- With all of the output there, Finish freezes it and ends the entry (43 R257). -/
theorem finish_of_full {s : State} (hfull : s.outPtr = s.usize) :
    finish s = .ok { s with
      hist := retain s.cfg.histRetain (s.hist ++ [outSlice s s.usize.toNat])
      evlog := s.evlog ++ [.extract s.filesDone s.usize]
      filesDone := s.filesDone + 1
      state := .done
      dstate := .none } := by
  rw [finish, if_neg (not_not.2 hfull), freeze, hfull, ofNat_toNat_succ]

theorem endOfBlock_of_not_final {s : State} (hfinal : s.bfinal = false) :
    endOfBlock s = .ok { s with dstate := .blkHdr } := by
  rw [endOfBlock, hfinal]
  rfl

theorem endOfBlock_of_final {s : State} (hfinal : s.bfinal = true) : endOfBlock s = finish s := if_pos hfinal

theorem endOfBlock_of_wrong_size {s : State} (hfinal : s.bfinal = true) (hsize : s.outPtr ≠ s.usize) :
    endOfBlock s = .error (.error .lengthMismatch s.npos.toNat s.outPtr.toNat) := by
  rw [endOfBlock_of_final hfinal, finish, if_pos hsize]

/-- Settles O37, by what EndOfBlock answers. -/
theorem endOfBlockChainsOrFinishes : Obligations.EndOfBlockChainsOrFinishes := by
  refine fun s => ⟨fun hfinal => ?_, fun hfinal hfull => ?_, fun hfinal hsize => ?_⟩
  · exact ⟨_, congrArg (runElement s) (endOfBlock_of_not_final hfinal), countersFollow_counterUpdate s _ rfl rfl, rfl⟩
  · have hend := (endOfBlock_of_final hfinal).trans (finish_of_full hfull)
    exact ⟨_, congrArg (runElement s) hend, countersFollow_counterUpdate s _ rfl rfl, rfl⟩
  · exact ⟨_, congrArg (runElement s) (endOfBlock_of_wrong_size hfinal hsize), raised_raiseError ..⟩

/-! ## Stored headers (43 R244) -/

theorem storedHeader_of_mismatch {len nlen : BitVec 16} {s : State} (h : nlen ≠ len ^^^ 0xFFFF) :
    storedHeader len nlen s = .error (.error .storedLengthMismatch s.pos.toNat (len.toNat + nlen.toNat * 65536)) :=
  if_pos h

theorem storedHeader_of_bytes {len : BitVec 16} (hlen : len ≠ 0) (s : State) :
    storedHeader len (len ^^^ 0xFFFF) s = .ok { s with storedRem := len, dstate := .storedData } := by
  rw [storedHeader, if_neg (not_not.2 rfl), if_neg hlen]

/-- An empty stored block ends at once. -/
theorem storedHeader_of_empty (s : State) :
    storedHeader 0 (0 ^^^ 0xFFFF) s = endOfBlock { s with storedRem := 0 } := rfl

/-- Settles O27: the block has bytes, or it ends as EndOfBlock says. -/
theorem storedHeaderSelectsItsBytes : Obligations.StoredHeaderSelectsItsBytes := by
  refine fun s len => ⟨fun hlen => ?_, ?_, ?_⟩
  · exact ⟨_, congrArg (runElement s) (storedHeader_of_bytes hlen s), countersFollow_counterUpdate s _ rfl rfl, rfl⟩
  · rintro rfl hfinal
    have hend := endOfBlock_of_not_final (s := { s with storedRem := 0 }) hfinal
    exact ⟨_, congrArg (runElement s) ((storedHeader_of_empty s).trans hend), countersFollow_counterUpdate s _ rfl rfl,
      rfl⟩
  · rintro rfl hfinal hfull
    have hend := (endOfBlock_of_final (s := { s with storedRem := 0 }) hfinal).trans (finish_of_full hfull)
    exact ⟨_, congrArg (runElement s) ((storedHeader_of_empty s).trans hend), countersFollow_counterUpdate s _ rfl rfl,
      rfl⟩

/-- Settles O28: the check of NLEN, then EndOfBlock on an empty final block. -/
theorem storedHeaderMismatchRaises : Obligations.StoredHeaderMismatchRaises := by
  refine fun s len nlen => ⟨fun hne => ?_, ?_⟩
  · exact ⟨_, congrArg (runElement s) (storedHeader_of_mismatch hne), raised_raiseError ..⟩
  · rintro rfl rfl hfinal hsize
    have hend := endOfBlock_of_wrong_size (s := { s with storedRem := 0 }) hfinal hsize
    exact ⟨_, congrArg (runElement s) ((storedHeader_of_empty s).trans hend), raised_raiseError ..⟩

/-! ## Bytes appended to OUT (42 R212; 43 R245, R251, R260) -/

theorem putByte_eq (b : Byte) (s : State) :
    putByte b s = { s with out := s.out.write s.outPtr.toNat b, outPtr := s.outPtr + 1 } := by
  rw [putByte, ofNat_toNat_succ]

section
variable {b : Byte} {s t : State}

/-- What each OUT byte reads as in a state whose OUT is that of `s` with `b` appended. -/
theorem outByte_appended (hout : t.out = s.out.write s.outPtr.toNat b) (hepoch : t.epoch = s.epoch) (a : Nat) :
    outByte t a = if a = s.outPtr.toNat then b else outByte s a := by
  rw [← outByte_putByte, outByte, outByte, hout, hepoch]
  rfl

theorem outByte_appended_same (hout : t.out = s.out.write s.outPtr.toNat b) (hepoch : t.epoch = s.epoch) :
    outByte t s.outPtr.toNat = b := by
  rw [outByte_appended hout hepoch, if_pos rfl]

theorem outSameOutside_appended (hout : t.out = s.out.write s.outPtr.toNat b) (hepoch : t.epoch = s.epoch) :
    OutSameOutside s t s.outPtr.toNat 1 := fun a ha => by
  rw [outByte_appended hout hepoch, if_neg (by omega)]

end

/-- Settles O36: OutAppend, and the end of the step. -/
theorem literalIsAppendedOrOverruns : Obligations.LiteralIsAppendedOrOverruns := by
  refine fun s b => ⟨fun hroom => ?_, fun hfull => ?_⟩
  · have happend := outAppend_ok b s hroom
    rw [putByte_eq] at happend
    exact ⟨_, congrArg (runElement s) happend, countersFollow_counterUpdate s _ rfl rfl, outByte_appended_same rfl rfl,
      outSameOutside_appended rfl rfl, rfl⟩
  · exact ⟨_, congrArg (runElement s) (outAppend_full b s hfull), raised_raiseError ..⟩

/-- With one byte missing, the byte appended brings OUT_PTR to USIZE. -/
theorem putByte_eq_of_last {b : Byte} {s : State} (hlast : s.outPtr.toNat + 1 = s.usize.toNat) :
    putByte b s = { s with out := s.out.write s.outPtr.toNat b, outPtr := s.usize } := by
  rw [putByte, hlast, BitVec.ofNat_toNat, BitVec.setWidth_eq]

/-! ### Stored bytes (43 R245) -/

theorem countStored_eq {s : State} (h : 1 ≤ s.storedRem.toNat) :
    countStored s = { s with storedRem := s.storedRem - 1 } := by
  have hrem : BitVec.ofNat 16 (s.storedRem.toNat - 1) = s.storedRem - 1 := by bv_omega
  rw [countStored, hrem]

/-- A stored byte with more to come is appended and counted. -/
theorem storedByte_of_more {s : State} (b : Byte) (hroom : s.outPtr.toNat < s.usize.toNat)
    (hmore : 1 < s.storedRem.toNat) :
    storedByte b s = .ok { putByte b s with storedRem := s.storedRem - 1 } := by
  have hrem : s.storedRem - 1 ≠ 0 := by bv_omega
  rw [storedByte, outAppend_ok b s hroom]
  simp only [countStored_eq (s := putByte b s) hmore.le]
  exact if_neg hrem

/-- The last stored byte is appended and ends the block. -/
theorem storedByte_of_last {s : State} (b : Byte) (hroom : s.outPtr.toNat < s.usize.toNat) (hlast : s.storedRem = 1) :
    storedByte b s = endOfBlock { putByte b s with storedRem := 0 } := by
  have hcount : countStored (putByte b s) = { putByte b s with storedRem := 0 } := by
    rw [countStored, putByte_storedRem, hlast]
    rfl
  rw [storedByte, outAppend_ok b s hroom]
  simp only [hcount]
  rfl

theorem storedByte_of_full {s : State} (b : Byte) (hfull : s.usize.toNat ≤ s.outPtr.toNat) :
    storedByte b s = .error (.error .outputOverrun s.pos.toNat s.usize.toNat) := by
  rw [storedByte, outAppend_full b s hfull]

/-- Settles O29: OutAppend, then the count, then EndOfBlock on the byte that brings the count to 0. -/
theorem storedByteIsCopiedOrRaises : Obligations.StoredByteIsCopiedOrRaises := by
  refine fun s b => ⟨fun hfull => ?_, fun hroom hmore => ?_, fun hroom hlast hfinal => ?_,
    fun hlast hfinal hsize => ?_, fun hlast hfinal hshort => ?_⟩
  · exact ⟨_, congrArg (runElement s) (storedByte_of_full b hfull), raised_raiseError ..⟩
  · have hbody := storedByte_of_more b hroom hmore
    rw [putByte_eq] at hbody
    exact ⟨_, congrArg (runElement s) hbody, countersFollow_counterUpdate s _ rfl rfl, outByte_appended_same rfl rfl,
      outSameOutside_appended rfl rfl, rfl⟩
  · have hbody := (storedByte_of_last b hroom hlast).trans (endOfBlock_of_not_final hfinal)
    rw [putByte_eq] at hbody
    exact ⟨_, congrArg (runElement s) hbody, countersFollow_counterUpdate s _ rfl rfl, outByte_appended_same rfl rfl,
      outSameOutside_appended rfl rfl, rfl⟩
  · have hbody := (storedByte_of_last b (by omega) hlast).trans (endOfBlock_of_final hfinal)
    rw [putByte_eq_of_last hsize] at hbody
    have hend := hbody.trans (finish_of_full rfl)
    exact ⟨_, congrArg (runElement s) hend, countersFollow_counterUpdate s _ rfl rfl, outByte_appended_same rfl rfl,
      outSameOutside_appended rfl rfl, rfl⟩
  · have hptr : (putByte b s).outPtr.toNat = s.outPtr.toNat + 1 := by
      have husize := s.usize.isLt
      rw [putByte_outPtr, BitVec.toNat_ofNat, Nat.mod_eq_of_lt (by omega)]
    have hne : (putByte b s).outPtr ≠ s.usize := fun h => by rw [h] at hptr; omega
    have hbody := (storedByte_of_last b (by omega) hlast).trans (endOfBlock_of_wrong_size hfinal hne)
    simp only [hptr] at hbody
    exact ⟨_, congrArg (runElement s) hbody, raised_raiseError ..⟩

/-! ### Method-0 bytes (43 R260) -/

theorem finishIfFull_of_full {s : State} (hfull : s.outPtr = s.usize) : finishIfFull s = finish s := if_pos hfull

theorem rawByte_of_room {s : State} (b : Byte) (hroom : s.outPtr.toNat < s.usize.toNat) :
    rawByte b s = finishIfFull (putByte b s) := by
  rw [rawByte, if_pos hroom, outAppend_ok b s hroom]

theorem rawByte_of_full {s : State} (b : Byte) (hfull : s.outPtr = s.usize) : rawByte b s = finishIfFull s := by
  rw [rawByte, hfull, if_neg (Nat.lt_irrefl _)]

/-- Settles O30: OutAppend while there is room, and Finish once OUT_PTR is USIZE. -/
theorem rawByteIsCopied : Obligations.RawByteIsCopied := by
  refine fun s b => ⟨fun hmore => ?_, fun hlast => ?_, fun hfull => ?_⟩
  · have hne : s.outPtr + 1 ≠ s.usize := fun h => by
      have hsize := congrArg BitVec.toNat h
      bv_omega
    have hbody := rawByte_of_room (s := s) b (by omega)
    rw [putByte_eq, finishIfFull, if_neg hne] at hbody
    exact ⟨_, congrArg (runElement s) hbody, countersFollow_counterUpdate s _ rfl rfl, outByte_appended_same rfl rfl,
      outSameOutside_appended rfl rfl, rfl⟩
  · have hbody := rawByte_of_room (s := s) b (by omega)
    rw [putByte_eq_of_last hlast] at hbody
    have hend := hbody.trans ((finishIfFull_of_full rfl).trans (finish_of_full rfl))
    exact ⟨_, congrArg (runElement s) hend, countersFollow_counterUpdate s _ rfl rfl, outByte_appended_same rfl rfl,
      outSameOutside_appended rfl rfl, rfl⟩
  · have hend := (rawByte_of_full b hfull).trans ((finishIfFull_of_full hfull).trans (finish_of_full hfull))
    exact ⟨_, congrArg (runElement s) hend, countersFollow_counterUpdate s _ rfl rfl, rfl⟩

/-! ## The dynamic header (43 R247, R248, R250) -/

/-- Settles O31: the two range checks in their order, and the fields are wide enough for their counts. -/
theorem dynamicCountsAreLoadedOrRaise : Obligations.DynamicCountsAreLoadedOrRaise := by
  refine fun s l d c => ⟨fun hl hd => ?_, fun hl => ?_, fun hl hd => ?_⟩
  · have hbody : dynamicCounts l.toNat d.toNat c.toNat s = .ok { s with
        hlit := BitVec.ofNat 9 (l.toNat + 257)
        hdist := BitVec.ofNat 6 (d.toNat + 1)
        hclen := BitVec.ofNat 5 (c.toNat + 4)
        dstate := .dynCllen } := (if_neg (Nat.not_lt.2 hl)).trans (if_neg (Nat.not_lt.2 hd))
    have hc := c.isLt
    exact ⟨_, congrArg (runElement s) hbody, countersFollow_counterUpdate s _ rfl rfl,
      Nat.mod_eq_of_lt (by omega), Nat.mod_eq_of_lt (by omega), Nat.mod_eq_of_lt (by omega), rfl⟩
  · have hbody : dynamicCounts l.toNat d.toNat c.toNat s = .error (.error .invalidCodeLengths s.pos.toNat 0x105) :=
      if_pos hl
    exact ⟨_, congrArg (runElement s) hbody, raised_raiseError ..⟩
  · have hbody : dynamicCounts l.toNat d.toNat c.toNat s = .error (.error .invalidCodeLengths s.pos.toNat 0x205) :=
      (if_neg (Nat.not_lt.2 hl)).trans (if_pos hd)
    exact ⟨_, congrArg (runElement s) hbody, raised_raiseError ..⟩

@[simp] theorem length_clLengths (ls : List (BitVec 3)) : (clLengths ls).length = 19 := by simp [clLengths]

theorem clLengths_le {ls : List (BitVec 3)} {l : Nat} (h : l ∈ clLengths ls) : l ≤ 7 := by
  obtain ⟨k, _, rfl⟩ := List.mem_map.1 h
  exact Nat.le_of_lt_succ (BitVec.isLt _)

/-- Field `k` is the length of symbol `CLORDER[k]`, and 0 past the fields sent (30 R96, R99). -/
theorem getD_clLengths_clOrder (ls : List (BitVec 3)) {k : Nat} (hk : k < 19) :
    (clLengths ls).getD (clOrder.getD k 0) 0 = (ls.getD k 0).toNat := by
  have horder : ∀ k < 19, clOrder.getD k 0 < 19 ∧ clOrder.idxOf (clOrder.getD k 0) = k := by decide
  obtain ⟨hsym, hidx⟩ := horder k hk
  rw [List.getD_eq_getElem _ _ (by rwa [length_clLengths])]
  simp only [clLengths, List.getElem_map, List.getElem_range, hidx]

theorem buildable_clLengths {ls : List (BitVec 3)} (h : overSubscribed (clLengths ls) 7 = false) :
    Buildable (clLengths ls) 7 where
  alphabet := by simp
  limit := by omega
  lengths := fun _ => clLengths_le
  legal := h

theorem buildCl_of_legal {ls : List (BitVec 3)} (h : overSubscribed (clLengths ls) 7 = false) (s : State) :
    buildCl ls s = .ok { s with tCl := tableOf (clLengths ls) 7, lidx := 0, dstate := .dynLens } := by
  rw [buildCl, Config.maxBitsCl, huffBuild, h]
  rfl

theorem buildCl_of_overSubscribed {ls : List (BitVec 3)} (h : overSubscribed (clLengths ls) 7 = true) (s : State) :
    buildCl ls s = .error (.error .invalidCodeLengths s.pos.toNat 0x001) := by
  rw [buildCl, Config.maxBitsCl, huffBuild, h]
  rfl

/-- Settles O32: HuffBuild on the lengths that `getD_clLengths_clOrder` places. -/
theorem codeLengthCodeIsBuiltInOrder : Obligations.CodeLengthCodeIsBuiltInOrder := by
  refine fun s ls _ => ⟨fun hlegal => ?_, fun hover => ?_⟩
  · exact ⟨_, congrArg (runElement s) (buildCl_of_legal hlegal s), countersFollow_counterUpdate s _ rfl rfl, rfl, rfl,
      fun k hk => ((buildable_clLengths hlegal).lenAt_eq _).trans (getD_clLengths_clOrder ls hk), rfl⟩
  · exact ⟨_, congrArg (runElement s) (buildCl_of_overSubscribed hover s), raised_raiseError ..⟩

section
variable {s : State}

theorem buildDynamic_of_no_eob (h256 : (litLengths s).getD 256 0 = 0) :
    buildDynamic s = .error (.error .invalidCodeLengths s.pos.toNat 0x104) := if_pos h256

theorem buildDynamic_of_lit_overSubscribed (h256 : (litLengths s).getD 256 0 ≠ 0)
    (hlit : overSubscribed (litLengths s) 15 = true) :
    buildDynamic s = .error (.error .invalidCodeLengths s.pos.toNat 0x101) := by
  rw [buildDynamic, if_neg h256, Config.maxBitsLitDist, huffBuild, hlit]
  rfl

theorem buildDynamic_of_dist_overSubscribed (h256 : (litLengths s).getD 256 0 ≠ 0)
    (hlit : overSubscribed (litLengths s) 15 = false) (hdist : overSubscribed (distLengths s) 15 = true) :
    buildDynamic s = .error (.error .invalidCodeLengths s.pos.toNat 0x201) := by
  rw [buildDynamic, if_neg h256, Config.maxBitsLitDist, huffBuild, huffBuild, hlit, hdist]
  rfl

theorem buildDynamic_of_legal (h256 : (litLengths s).getD 256 0 ≠ 0)
    (hlit : overSubscribed (litLengths s) 15 = false) (hdist : overSubscribed (distLengths s) 15 = false) :
    buildDynamic s = .ok { s with
      tLit := tableOf (litLengths s) 15, tDist := tableOf (distLengths s) 15, dstate := .huffData } := by
  rw [buildDynamic, if_neg h256, Config.maxBitsLitDist, huffBuild, huffBuild, hlit, hdist]
  rfl

/-- A code-length symbol whose run completes LENS writes it and builds the tables (43 R249). -/
theorem exec_lengthRun_of_eq {i : Instr} {v : BitVec 4} {r : Nat} (hrun : lengthRun s i = some (v, r))
    (hlast : s.lidx.toNat + r = totalLengths s) : exec i s = runElement s (buildDynamic (writeRun v r s)) := by
  rw [exec_lengthRun hrun]
  rcases applyRun_cases v r s with ⟨hpast, _⟩ | ⟨_, happly⟩ | ⟨hlt, _⟩
  · omega
  · rw [happly]
  · omega

end

/-- Settles O35: the run completes LENS (`lensAt_writeRun`), then BuildDynamic on the completed LENS. -/
theorem lastCodeLengthBuildsTheTables : Obligations.LastCodeLengthBuildsTheTables := by
  rintro s _ i v r litl dl hrun hlast rfl hlitl hdl
  obtain rfl : litl = litLengths (writeRun v r s) := hlitl
  obtain rfl : dl = distLengths (writeRun v r s) := hdl
  have hexec := exec_lengthRun_of_eq hrun hlast
  refine ⟨fun htotal hlens => ⟨writeRun_lidx_toNat v (by omega), (setRun_length ..).trans hlens,
    lensAt_writeRun v (by omega)⟩, fun h256 => ?_, fun h256 hlit => ?_, fun h256 hlit hdist => ?_,
    fun h256 hlit hdist => ?_⟩
  · exact ⟨_, hexec.trans (congrArg (runElement s) (buildDynamic_of_no_eob h256)), raised_raiseError ..⟩
  · exact ⟨_, hexec.trans (congrArg (runElement s) (buildDynamic_of_lit_overSubscribed h256 hlit)),
      raised_raiseError ..⟩
  · exact ⟨_, hexec.trans (congrArg (runElement s) (buildDynamic_of_dist_overSubscribed h256 hlit hdist)),
      raised_raiseError ..⟩
  · exact ⟨_, hexec.trans (congrArg (runElement s) (buildDynamic_of_legal h256 hlit hdist)),
      countersFollow_counterUpdate s _ rfl rfl, rfl, rfl, rfl⟩

/-! ## Matches and distance fields (43 R253, R255) -/

/-- No match is longer than 258 (30 R100). -/
theorem matchLength_le {sym e : Nat} (he : e < 2 ^ lengthExtra sym) : matchLength sym e ≤ 258 := by
  have hrows : ∀ row ∈ lengthTable, row.1 + 2 ^ row.2 ≤ 259 := by decide
  have hrow : lengthBase sym + 2 ^ lengthExtra sym ≤ 259 := by
    unfold lengthBase lengthExtra
    by_cases hsym : sym - 257 < lengthTable.length
    · rw [List.getD_eq_getElem _ _ hsym]
      exact hrows _ (List.getElem_mem hsym)
    · rw [List.getD_eq_default _ _ (Nat.not_lt.1 hsym)]
      decide
  rw [matchLength]
  omega

/-- The row completes a match of `len` bytes with distance symbol `d` and extra value `x`: a match row with its own
length, or a distance row with the length already read (43 R253; log 11). -/
def EndsMatch (i : Instr) (s : State) (d x len : Nat) : Prop :=
  (∃ sym e, i.matchFields = some (sym, e, d, x) ∧ len = lengthBase sym + e) ∨
    (i.distanceFields = some (d, x) ∧ len = s.mlen.toNat)

/-- Both kinds of rows run the distance field with the length in the latch. -/
theorem exec_eq_distanceField {i : Instr} {s : State} {d x len : Nat} (h : EndsMatch i s d x len) :
    ∃ m : BitVec 9, m.toNat = len ∧ exec i s = runElement s (distanceField d x { s with mlen := m }) := by
  rcases h with ⟨sym, e, hfields, rfl⟩ | ⟨hfields, rfl⟩
  · have hle := matchLength_le (matchRow_of_matchFields hfields).extra
    exact ⟨BitVec.ofNat 9 (matchLength sym e), Nat.mod_eq_of_lt (by omega), exec_match hfields s⟩
  · exact ⟨s.mlen, rfl, exec_distance hfields s⟩

section
variable {d x : Nat} {s : State}

theorem distanceField_of_invalid (hd : 30 ≤ d) :
    distanceField d x s = .error (.error .invalidDistanceSymbol s.pos.toNat d) := if_pos hd

theorem distanceField_of_valid (hd : d < 30) :
    distanceField d x s = outCopy s.mlen.toNat (matchDistance d x) s := if_neg (Nat.not_le.2 hd)

theorem one_le_matchDistance (hd : d < 30) (x : Nat) : 1 ≤ matchDistance d x :=
  (distanceBase_pos d hd).trans (Nat.le_add_right _ _)

theorem distanceField_of_far (hd : d < 30) (hfar : visible s < matchDistance d x) :
    distanceField d x s = .error (.error .distanceTooFar s.pos.toNat (matchDistance d x)) := by
  rw [distanceField_of_valid hd, outCopy, if_pos (.inr hfar)]

theorem distanceField_of_overrun (hd : d < 30) (hreach : matchDistance d x ≤ visible s)
    (hover : s.usize.toNat < s.outPtr.toNat + s.mlen.toNat) :
    distanceField d x s = .error (.error .outputOverrun s.pos.toNat s.mlen.toNat) := by
  have hpos := one_le_matchDistance hd x
  rw [distanceField_of_valid hd, outCopy, if_neg (by omega), if_pos hover]

theorem distanceField_of_fits (hd : d < 30) (hreach : matchDistance d x ≤ visible s)
    (hroom : s.outPtr.toNat + s.mlen.toNat ≤ s.usize.toNat) :
    distanceField d x s = .ok (copyLoop (matchDistance d x) s.mlen.toNat s) := by
  have hpos := one_le_matchDistance hd x
  rw [distanceField_of_valid hd, outCopy, if_neg (by omega), if_neg (Nat.not_lt.2 hroom)]

end

/-- `t` is `s` after a step that copies `len` bytes from `dist` back (42 R214). -/
def CopiesMatch (s t : State) (len dist : Nat) : Prop :=
  CountersFollow s t ∧ t.outPtr.toNat = s.outPtr.toNat + len ∧
    (∀ j, j < len → outByte t (s.outPtr.toNat + j) = logical t (visibleHistory s + s.outPtr.toNat + j - dist)) ∧
    OutSameOutside s t s.outPtr.toNat len ∧
    t = { s with
      pos := s.npos, mlen := 0, out := t.out, outPtr := t.outPtr, progFile := t.progFile, progTotal := t.progTotal }

/-- The copy of a match whose length `m` has been read, and the end of its step. -/
theorem copiesMatch_copyLoop {s : State} {m : BitVec 9} {dist : Nat} (hpos : 1 ≤ dist) (hreach : dist ≤ visible s)
    (hfits : s.outPtr.toNat + m.toNat < 2 ^ 32) :
    CopiesMatch s (counterUpdate (commitCursor (copyLoop dist m.toNat { s with mlen := m }))) m.toNat dist := by
  have hframe := copyLoop_frame dist m.toNat { s with mlen := m }
  refine ⟨countersFollow_counterUpdate s _ ?_ ?_, copyLoop_outPtr dist m.toNat { s with mlen := m } hfits,
    copyLoop_copied dist m.toNat { s with mlen := m } hfits hpos hreach,
    copyLoop_outside dist m.toNat { s with mlen := m } hfits, ?_⟩
  · rw [hframe]; rfl
  · rw [hframe]; rfl
  · rw [hframe]; rfl

/-- A match row or a distance row that reaches back no further than the window and fits in the output copies the match
(43 R253). -/
theorem exec_copiesMatch {i : Instr} {s : State} {d x len : Nat} (h : EndsMatch i s d x len) (hd : d < 30)
    (hreach : matchDistance d x ≤ visible s) (hroom : s.outPtr.toNat + len ≤ s.usize.toNat) :
    ∃ t, exec i s = .next t ∧ CopiesMatch s t len (matchDistance d x) := by
  obtain ⟨m, rfl, hexec⟩ := exec_eq_distanceField h
  have hbody := distanceField_of_fits (s := { s with mlen := m }) hd hreach hroom
  exact ⟨_, hexec.trans (congrArg (runElement s) hbody),
    copiesMatch_copyLoop (one_le_matchDistance hd x) hreach (Nat.lt_of_le_of_lt hroom s.usize.isLt)⟩

/-- Settles O38, by `exec_copiesMatch` for a match row. -/
theorem matchCopiesByteSerially : Obligations.MatchCopiesByteSerially := by
  rintro s i sym e d x len dist hfields hd hlen rfl hreach hroom
  exact exec_copiesMatch (.inl ⟨sym, e, hfields, hlen⟩) hd hreach hroom

/-- Settles O40, by `exec_copiesMatch` for a distance row. -/
theorem distanceFieldCompletesTheMatch : Obligations.DistanceFieldCompletesTheMatch := by
  rintro s i d x len dist hfields hd hlen rfl hreach hroom
  exact exec_copiesMatch (.inr ⟨hfields, hlen⟩) hd hreach hroom

/-- Settles O39: the check of the symbol, then the two of OutCopy. -/
theorem matchRaisesInOrder : Obligations.MatchRaisesInOrder := by
  rintro s i d x len dist hrow rfl
  obtain ⟨m, rfl, hexec⟩ := exec_eq_distanceField hrow
  refine ⟨fun hd => ?_, fun hd hfar => ?_, fun hd hreach hover => ?_⟩
  · have hbody := distanceField_of_invalid (x := x) (s := { s with mlen := m }) hd
    exact ⟨_, hexec.trans (congrArg (runElement s) hbody), raised_raiseError ..⟩
  · have hbody := distanceField_of_far (s := { s with mlen := m }) hd hfar
    exact ⟨_, hexec.trans (congrArg (runElement s) hbody), raised_raiseError ..⟩
  · have hbody := distanceField_of_overrun (s := { s with mlen := m }) hd hreach hover
    exact ⟨_, hexec.trans (congrArg (runElement s) hbody), raised_raiseError ..⟩

/-! ## Invalid symbols (43 R254, R255) -/

/-- A match row with distance symbol 30 or 31 raises at the element start (43 R255). -/
theorem exec_match_of_invalid {i : Instr} {sym e d x : Nat} (hfields : i.matchFields = some (sym, e, d, x))
    (hd : 30 ≤ d) (s : State) : ∃ t, exec i s = .next t ∧ Raised s t 0x16 s.pos.toNat d :=
  (matchRaisesInOrder s i d x _ _ (.inl ⟨sym, e, hfields, rfl⟩) rfl).1 hd

/-- Settles O41: the rules of the rows, and the fixed code lengths of R185. -/
theorem invalidSymbolsRaise : Obligations.InvalidSymbolsRaise := by
  intro s
  obtain ⟨_, _, _, hlit, hdist⟩ := fixedCodesOfEverySymbol
  exact ⟨⟨_, rfl, raised_raiseError ..⟩, ⟨_, rfl, raised_raiseError ..⟩, ⟨_, rfl, raised_raiseError ..⟩,
    ⟨_, rfl, raised_raiseError ..⟩, fun i sym e d x hfields hd => exec_match_of_invalid hfields (by omega) s,
    (hlit 286 (by omega) (by omega)).1, (hlit 287 (by omega) (by omega)).1, (hdist 30 (by omega)).1,
    (hdist 31 (by omega)).1⟩

end Sys2Proof.Machine

/-! # Proofs about the host commands (44_host_commands.md)

The invariant first: its parts, what keeps them (the ways out of RUN, the commands, the host's accesses, the rules of
the elements), that no element that the invariant lets the engine select is refused, and the step. Then the progress
counters, the commands one by one, and the host's accesses to OUT. -/

namespace Sys2Proof.Machine

/-! ## The parts of the invariant (44 R314) -/

/-- The part of the invariant that speaks of neither STATE nor DSTATE. -/
structure Settled (s : State) : Prop where
  config : s.cfg.wf = true
  memory : s.inp.wf = true ∧ s.out.wf = true
  bitOrder : s.order = .lsb
  cursor : s.pos.toNat ≤ 8 * s.inRecv.toNat
  sizes : s.inRecv.toNat ≤ s.csize.toNat ∧ s.csize.toNat < s.cfg.inCap ∧ s.outPtr.toNat ≤ s.usize.toNat ∧
    s.usize.toNat ≤ s.cfg.outCap
  method : s.method = 0 ∨ s.method = 8
  blockType : s.btype ≠ 3
  progress : s.progFile.toNat ≤ s.usize.toNat
  lengths : s.lens.length = 316
  alphabets : symbolsBelow s.tCl 19 ∧ symbolsBelow s.tLit 288 ∧ symbolsBelow s.tDist 32

/-- HLIT and HDIST as the dynamic header leaves them (10 R31). -/
def CountsInRange (s : State) : Prop :=
  257 ≤ s.hlit.toNat ∧ s.hlit.toNat ≤ 286 ∧ 1 ≤ s.hdist.toNat ∧ s.hdist.toNat ≤ 30

/-- What the element that DSTATE selects needs, read from position `p` on: the invariant in RUN, by DSTATE. -/
def Ready (s : State) (p : Nat) : Prop :=
  match s.dstate with
  | .none => False
  | .raw => s.method = 0 ∧ p % 8 = 0
  | .blkHdr | .storedHdr | .dynCounts => s.method ≠ 0
  | .storedData => s.method ≠ 0 ∧ s.storedRem ≠ 0 ∧ p % 8 = 0
  | .dynCllen => s.method ≠ 0 ∧ CountsInRange s ∧ 4 ≤ s.hclen.toNat ∧ s.hclen.toNat ≤ 19
  | .dynLens => s.method ≠ 0 ∧ CountsInRange s ∧ s.lidx.toNat < totalLengths s ∧ s.tCl.built = true
  | .huffData => s.method ≠ 0 ∧ s.tLit.built = true ∧ s.tDist.built = true

section
variable {s : State} {p : Nat}

theorem ready_raw (hd : s.dstate = .raw) : Ready s p ↔ s.method = 0 ∧ p % 8 = 0 := by simp only [Ready, hd]

theorem ready_blkHdr (hd : s.dstate = .blkHdr) : Ready s p ↔ s.method ≠ 0 := by simp only [Ready, hd]

theorem ready_storedHdr (hd : s.dstate = .storedHdr) : Ready s p ↔ s.method ≠ 0 := by simp only [Ready, hd]

theorem ready_storedData (hd : s.dstate = .storedData) :
    Ready s p ↔ s.method ≠ 0 ∧ s.storedRem ≠ 0 ∧ p % 8 = 0 := by simp only [Ready, hd]

theorem ready_dynCounts (hd : s.dstate = .dynCounts) : Ready s p ↔ s.method ≠ 0 := by simp only [Ready, hd]

theorem ready_dynCllen (hd : s.dstate = .dynCllen) :
    Ready s p ↔ s.method ≠ 0 ∧ CountsInRange s ∧ 4 ≤ s.hclen.toNat ∧ s.hclen.toNat ≤ 19 := by simp only [Ready, hd]

theorem ready_dynLens (hd : s.dstate = .dynLens) :
    Ready s p ↔ s.method ≠ 0 ∧ CountsInRange s ∧ s.lidx.toNat < totalLengths s ∧ s.tCl.built = true := by
  simp only [Ready, hd]

theorem ready_huffData (hd : s.dstate = .huffData) :
    Ready s p ↔ s.method ≠ 0 ∧ s.tLit.built = true ∧ s.tDist.built = true := by simp only [Ready, hd]

theorem Inv.settled (h : Inv s) : Settled s :=
  { h with method := h.methods.1, progress := h.progress.1 }

/-- In RUN the invariant says what the next element needs. -/
theorem Inv.ready (h : Inv s) (hrun : s.state = .run) : Ready s s.pos.toNat := by
  have hmethod := h.methods.2 hrun
  have hselected := h.selection
  obtain ⟨hranges, hclen, hlidx⟩ := h.counts
  obtain ⟨hrem, haligned⟩ := h.stored
  obtain ⟨hcl, hdata⟩ := h.tables
  have hcompressed (d : DState) (hd : s.dstate = d) (hne : d ≠ .raw) : s.method ≠ 0 := fun h0 =>
    hne (hd.symm.trans (hmethod.2 h0))
  unfold Ready
  cases hd : s.dstate with
  | none => exact hselected.1 hd hrun
  | raw => exact ⟨hmethod.1 hd, haligned (.inr hd)⟩
  | blkHdr => exact hcompressed _ hd nofun
  | storedHdr => exact hcompressed _ hd nofun
  | dynCounts => exact hcompressed _ hd nofun
  | storedData => exact ⟨hcompressed _ hd nofun, hrem hd, haligned (.inl hd)⟩
  | dynCllen => exact ⟨hcompressed _ hd nofun, hranges (.inl hd), hclen hd⟩
  | dynLens => exact ⟨hcompressed _ hd nofun, hranges (.inr hd), hlidx hd, hcl hd⟩
  | huffData => exact ⟨hcompressed _ hd nofun, hdata hd⟩

theorem Inv.errcode_of_run (h : Inv s) (hrun : s.state = .run) : s.errcode = 0 := by
  by_contra hne
  obtain ⟨hstopped, _⟩ := h.errors
  rcases hstopped.1 hne with hwait | herr
  · cases hwait.symm.trans hrun
  · cases herr.symm.trans hrun

/-- The invariant outside RUN: what each of the states WAITING, ERROR and DONE adds to the settled part. -/
theorem Settled.inv_of_stopped (h : Settled s) (hatomic : s.npos = s.pos ∧ s.mlen = 0) (hrun : s.state ≠ .run)
    (hnone : s.dstate = .none)
    (herrors : (s.errcode ≠ 0 ↔ s.state = .waiting ∨ s.state = .error) ∧
      (s.errcode = underrunCode ↔ s.state = .waiting))
    (htainted : s.state = .error → s.taint = true) (hmissing : s.state = .waiting → s.inRecv.toNat < s.csize.toNat)
    (hfinished : s.state = .done →
      (s.progFile = s.usize ∧ s.outPtr = s.usize) ∧ s.hist.getLast? = some (outSlice s s.usize.toNat)) : Inv s :=
  { h with
    atomic := hatomic
    methods := ⟨h.method, fun hr => absurd hr hrun⟩
    errors := herrors
    selection := iff_of_true hnone hrun
    tainted := htainted
    missing := hmissing
    progress := ⟨h.progress, fun hr => absurd hr hrun, fun hd => (hfinished hd).1⟩
    frozen := fun hd => (hfinished hd).2
    counts := by simp [hnone]
    stored := by simp [hnone]
    tables := by simp [hnone] }

/-- The invariant in RUN. -/
theorem Settled.inv_of_run (h : Settled s) (hatomic : s.npos = s.pos ∧ s.mlen = 0) (hrun : s.state = .run)
    (herr : s.errcode = 0) (hready : Ready s s.pos.toNat) (hprogress : s.outPtr.toNat ≤ s.progFile.toNat) : Inv s := by
  have herrors : (s.errcode ≠ 0 ↔ s.state = .waiting ∨ s.state = .error) ∧
      (s.errcode = underrunCode ↔ s.state = .waiting) := by
    rw [herr, hrun]
    decide
  have hmodes : s.dstate ≠ .none ∧ (s.dstate = .raw ↔ s.method = 0) ∧
      (s.dstate = .dynCllen ∨ s.dstate = .dynLens → CountsInRange s) ∧
      (s.dstate = .dynCllen → 4 ≤ s.hclen.toNat ∧ s.hclen.toNat ≤ 19) ∧
      (s.dstate = .dynLens → s.lidx.toNat < totalLengths s ∧ s.tCl.built = true) ∧
      (s.dstate = .storedData → s.storedRem ≠ 0) ∧ (s.dstate = .storedData ∨ s.dstate = .raw → s.pos.toNat % 8 = 0) ∧
      (s.dstate = .huffData → s.tLit.built = true ∧ s.tDist.built = true) := by
    unfold Ready at hready
    cases hd : s.dstate <;> simp_all
  obtain ⟨hsome, hraw, hranges, hclen, hlens, hrem, haligned, hdata⟩ := hmodes
  exact { h with
    atomic := hatomic
    methods := ⟨h.method, fun _ => hraw⟩
    errors := herrors
    selection := iff_of_false hsome (not_not.2 hrun)
    tainted := by simp [hrun]
    missing := by simp [hrun]
    progress := ⟨h.progress, fun _ => hprogress, by simp [hrun]⟩
    frozen := by simp [hrun]
    counts := ⟨hranges, hclen, fun hd => (hlens hd).1⟩
    stored := ⟨hrem, haligned⟩
    tables := ⟨fun hd => (hlens hd).2, hdata⟩ }

/-! ## Errors, underruns and resets (60 R341, R345; 44 R302, R303; 70 R380) -/

/-- The codes of the errors are neither 0 nor that of BUFFER_UNDERRUN (60 R340). -/
theorem errCode_code_ne (c : ErrCode) : c.code ≠ 0 ∧ c.code ≠ underrunCode := by
  cases c <;> decide

theorem Settled.inv_raiseError (h : Settled s) (c : ErrCode) (a x : Nat) : Inv (raiseError c a x s) := by
  obtain ⟨hne, hnotUnderrun⟩ := errCode_code_ne c
  refine Settled.inv_of_stopped { h with } ⟨rfl, rfl⟩ (by simp) rfl ?_ (fun _ => rfl) (by simp) (by simp)
  exact ⟨iff_of_true hne (.inr rfl), iff_of_false hnotUnderrun (by simp)⟩

theorem Settled.inv_enterWaiting (h : Settled s) (r a : Nat) (hmissing : s.inRecv.toNat < s.csize.toNat) :
    Inv (enterWaiting r a s) := by
  refine Settled.inv_of_stopped { h with } ⟨rfl, rfl⟩ ?_ rfl ?_ ?_ (fun _ => hmissing) ?_ <;> simp [underrunCode]

theorem Settled.inv_raiseUnderrun (h : Settled s) (r a : Nat) : Inv (raiseUnderrun r a s) := by
  unfold raiseUnderrun
  split
  next hmissing => exact h.inv_enterWaiting r a hmissing
  next => exact h.inv_raiseError _ a r

/-- A table none of whose symbols was ever written. -/
theorem symbolsBelow_unbuilt {n : Nat} (hn : 0 < n) : symbolsBelow (HuffTable.unbuilt n) n := by
  intro v hv
  rw [List.eq_of_mem_replicate hv]
  exact hn

/-- OPEN and CLOSE leave a state that meets the invariant, with legal parameters and canonical memories (44 R302,
R303). -/
theorem inv_sessionReset {dest : EState} (hdest : dest = .idle ∨ dest = .closed) (hcfg : s.cfg.wf = true)
    (hmem : s.inp.wf = true ∧ s.out.wf = true) : Inv (sessionReset dest s) := by
  have hcap : 1 ≤ s.cfg.inCap := by
    simp only [Config.wf, Bool.and_eq_true, decide_eq_true_eq] at hcfg
    omega
  have hsettled : Settled (sessionReset dest s) := {
    config := hcfg
    memory := hmem
    bitOrder := rfl
    cursor := Nat.zero_le _
    sizes := ⟨Nat.zero_le _, hcap, Nat.zero_le _, Nat.zero_le _⟩
    method := .inl rfl
    blockType := fun h : (0 : BitVec 2) = 3 => absurd h (by decide)
    progress := Nat.zero_le _
    lengths := List.length_replicate ..
    alphabets := ⟨symbolsBelow_unbuilt (by omega), symbolsBelow_unbuilt (by omega), symbolsBelow_unbuilt (by omega)⟩ }
  rcases hdest with rfl | rfl <;>
    exact hsettled.inv_of_stopped ⟨rfl, rfl⟩ (by simp) rfl (by simp [underrunCode]) (by simp) (by simp) (by simp)

/-- A hardware reset is CLOSE with the memories, ARG0..ARG2 and EVLOG emptied (70 R380). -/
theorem inv_hardReset (hcfg : s.cfg.wf = true) : Inv (hardReset s) :=
  inv_sessionReset (s := hardReset s) (.inr rfl) hcfg ⟨rfl, rfl⟩

end

/-- Settles O51: the reset state is what CLOSE makes of it. -/
theorem resetMeetsTheInvariant : Obligations.ResetMeetsTheInvariant :=
  inv_sessionReset (s := State.reset) (.inr rfl) (by decide) ⟨rfl, rfl⟩

/-! ## Commands and host accesses keep the invariant (44 R300-R311) -/

section
variable {s : State}

/-- EntryInit, for an entry that starts or restarts, leads to RUN at the entry's first element (43 R240; 44 R304,
R307). -/
theorem Settled.inv_entryInit (h : Settled s) (herr : s.errcode = 0) : Inv { entryInit s with state := .run } := by
  obtain ⟨hrecv, hcsize, _, husize⟩ := h.sizes
  have hready : Ready { entryInit s with state := .run } 0 := by
    by_cases h0 : s.method = 0
    · exact (ready_raw (if_pos h0)).2 ⟨h0, rfl⟩
    · exact (ready_blkHdr (if_neg h0)).2 h0
  exact Settled.inv_of_run
    { h with
      bitOrder := rfl
      cursor := Nat.zero_le _
      sizes := ⟨hrecv, hcsize, Nat.zero_le _, husize⟩
      blockType := fun h : (0 : BitVec 2) = 3 => absurd h (by decide) }
    ⟨rfl, rfl⟩ rfl herr hready (Nat.zero_le _)

theorem Inv.inv_startEntry (h : Inv s) (a0 cs us : Word) :
    ∃ t, runCommand s (startEntry a0 cs us s) = .next t ∧ Inv t := by
  rcases startEntry_cases a0 cs us s with ⟨c, x, e⟩ | ⟨_, hcs, hus, hmethod, _, _, e⟩ <;> rw [e]
  · exact ⟨_, rfl, h.settled.inv_raiseError c _ x⟩
  · refine ⟨_, rfl, Settled.inv_entryInit (s := { s with
      method := startMethod a0, solid := startSolid a0, csize := cs, usize := us, inRecv := 0, pos := 0, outPtr := 0
      errcode := 0, errpos := 0, erraux := 0, progFile := 0 }) ?_ rfl⟩
    exact { h.settled with
      cursor := Nat.zero_le _
      sizes := ⟨Nat.zero_le _, hcs, Nat.zero_le _, hus⟩
      method := hmethod
      progress := Nat.zero_le _ }

theorem deliver_inRecv_toNat {k : Nat} (hfits : s.inRecv.toNat + k ≤ s.csize.toNat) :
    (deliver k s).inRecv.toNat = s.inRecv.toNat + k :=
  Nat.mod_eq_of_lt (Nat.lt_of_le_of_lt hfits s.csize.isLt)

/-- More input delivered, up to CSIZE (44 R306). -/
theorem Settled.deliver (h : Settled s) {k : Nat} (hfits : s.inRecv.toNat + k ≤ s.csize.toNat) :
    Settled (deliver k s) := by
  have hrecv := deliver_inRecv_toNat hfits
  have hcursor := h.cursor
  obtain ⟨_, hsizes⟩ := h.sizes
  exact { h with
    cursor := by rw [hrecv, deliver_pos]; omega
    sizes := ⟨hrecv.trans_le hfits, hsizes⟩ }

theorem Inv.inv_appendInput (h : Inv s) (k : Word) : ∃ t, runCommand s (appendInput k s) = .next t ∧ Inv t := by
  rcases appendInput_cases k s with ⟨x, e⟩ | ⟨_, hfits, ⟨_, e⟩ | ⟨hwait, e⟩⟩ <;> rw [e]
  · exact ⟨_, rfl, h.settled.inv_raiseError _ _ x⟩
  · refine ⟨_, rfl, Settled.inv_entryInit (s := { deliver k.toNat s with errcode := 0, errpos := 0, erraux := 0 }) ?_
      rfl⟩
    exact { h.settled.deliver hfits with }
  · have hsettled := h.settled.deliver hfits
    exact ⟨_, rfl, { h with cursor := hsettled.cursor, sizes := hsettled.sizes, missing := fun hw => absurd hw hwait }⟩

/-- Every command answers a next state that meets the invariant (44 R300). -/
theorem Inv.inv_exec_command (h : Inv s) {i : Instr} (hi : i.isCommand = true) :
    ∃ t, exec i s = .next t ∧ Inv t := by
  cases i
  case nop => exact ⟨s, rfl, h⟩
  case openSession => exact ⟨_, rfl, inv_sessionReset (.inl rfl) h.config h.memory⟩
  case closeSession => exact ⟨_, rfl, inv_sessionReset (.inr rfl) h.config h.memory⟩
  case startEntry => exact h.inv_startEntry _ _ _
  case appendInput => exact h.inv_appendInput _
  case illegalOpcode op => exact ⟨_, rfl, h.settled.inv_raiseError .illegalCommand _ _⟩
  all_goals contradiction

/-- The invariant does not speak of the schedule, ARG0..ARG2 and the records of the host's accesses. -/
theorem Inv.setHost (h : Inv s) (l : List Turn) (v a0 a1 a2 : Word) (m : Option Forbidden) (n : Nat) :
    Inv { s with sched := l, hostData := v, refusalMark := m, freeReads := n, arg0 := a0, arg1 := a1, arg2 := a2 } :=
  { h with }

theorem Inv.setSched (h : Inv s) (l : List Turn) : Inv { s with sched := l } := h.setHost l _ _ _ _ _ _

theorem Inv.inv_refuseAccess (h : Inv s) (why : Forbidden) : Inv (refuseAccess why s) := h.setHost _ _ _ _ _ _ _

theorem Inv.inv_registerWriteWork (h : Inv s) (offset size : Nat) (w : Word) :
    ∃ t, (registerWriteWork offset size w s).outcome = .next t ∧ Inv t := by
  rcases registerWriteWork_cases offset size w s with ⟨why, _, e⟩ | ⟨_, _, e⟩ | ⟨_, _, e⟩ <;> rw [e]
  · exact ⟨_, rfl, h.inv_refuseAccess why⟩
  · exact h.inv_exec_command (decodeCommand_isCommand w)
  · refine ⟨_, rfl, ?_⟩
    rcases writeRegister_cases (offset / 4) w s with e | e | e | e <;> rw [e]
    · exact h.setHost _ _ _ _ _ _ _
    · exact h.setHost _ _ _ _ _ _ _
    · exact h.setHost _ _ _ _ _ _ _
    · exact h

theorem Inv.inv_readRegister (h : Inv s) (offset size : Nat) : Inv (readRegister offset size s) := by
  rcases readRegister_cases offset size s with ⟨why, e⟩ | ⟨v, e⟩ <;> rw [e]
  · exact h.inv_refuseAccess why
  · exact h.setHost _ _ _ _ _ _ _

theorem Inv.inv_writeIn (h : Inv s) (a : Nat) (b : Byte) : Inv (writeIn a b s) := by
  rcases writeIn_cases a b s with ⟨why, e⟩ | ⟨_, _, _, _, e⟩ <;> rw [e]
  · exact h.inv_refuseAccess why
  · exact { h with memory := ⟨Memory.wf_write _ _ _ h.memory.1, h.memory.2⟩ }

theorem Inv.inv_readOut (h : Inv s) (a : Nat) : Inv (readOut a s) := by
  rcases readOut_cases a s with ⟨_, e⟩ | ⟨_, _, _, e⟩ | ⟨_, _, e⟩ <;> rw [e]
  · exact h.inv_refuseAccess _
  · exact h.setHost _ _ _ _ _ _ _
  · exact h.setHost _ _ _ _ _ _ _

theorem Inv.inv_writeOut (h : Inv s) (a : Nat) (b : Byte) : Inv (writeOut a b s) := by
  obtain ⟨why, e⟩ := writeOut_eq a b s
  rw [e]
  exact h.inv_refuseAccess why

end

/-! ## The rules of the elements keep the invariant (43) -/

/-- A state in RUN while an element is carried out: the cursor after the element, in `npos`, is inside the delivered
input too (log 10). -/
structure Reading (s : State) : Prop where
  settled : Settled s
  run : s.state = .run
  errcode : s.errcode = 0
  next : s.npos.toNat ≤ 8 * s.inRecv.toNat

/-- What the rule of an element may answer: an error, or a state that meets the invariant once the step has ended. -/
inductive RuleSound : Except Raise State → Prop where
  | error (c : ErrCode) (a x : Nat) : RuleSound (.error (.error c a x))
  | ok {u : State} (h : Inv (counterUpdate (commitCursor u))) : RuleSound (.ok u)

theorem RuleSound.ite {c : Prop} [Decidable c] {x y : Except Raise State} (hx : c → RuleSound x)
    (hy : ¬ c → RuleSound y) : RuleSound (if c then x else y) := by
  split
  · exact hx ‹_›
  · exact hy ‹_›

/-- A step whose rule is sound answers a next state that meets the invariant. -/
theorem RuleSound.runElement {s : State} {x : Except Raise State} (h : RuleSound x) (hs : Settled s) :
    ∃ t, runElement s x = .next t ∧ Inv t := by
  cases h with
  | error c a v => exact ⟨_, rfl, hs.inv_raiseError c a v⟩
  | ok h => exact ⟨_, rfl, h⟩

theorem symbolsBelow_tFixLit : symbolsBelow tFixLit 288 :=
  length_fixedLitLengths ▸ symbolsBelow_tableOf fixedLitLengths 15 (by simp [length_fixedLitLengths])
    (by simp [length_fixedLitLengths])

theorem symbolsBelow_tFixDist : symbolsBelow tFixDist 32 :=
  symbolsBelow_tableOf fixedDistLengths 15 (by decide) (by decide)

namespace Reading

variable {s : State}

/-- The end of a step keeps the settled part (44 R312). -/
theorem settled_endOfStep (h : Reading s) : Settled (counterUpdate (commitCursor s)) := by
  obtain ⟨hprog, _⟩ := countersFollow_counterUpdate (commitCursor s) (commitCursor s) rfl rfl
  obtain ⟨_, _, hptr, _⟩ := h.settled.sizes
  exact { h.settled with
    cursor := h.next
    progress := hprog.trans_le (Nat.max_le.2 ⟨h.settled.progress, hptr⟩) }

/-- A step may end with an element selected that is ready. -/
theorem ok (h : Reading s) (hready : Ready s s.npos.toNat) : RuleSound (.ok s) := by
  obtain ⟨hprog, _⟩ := countersFollow_counterUpdate (commitCursor s) (commitCursor s) rfl rfl
  exact .ok (h.settled_endOfStep.inv_of_run ⟨rfl, rfl⟩ h.run h.errcode hready
    ((Nat.le_max_right _ _).trans_eq hprog.symm))

/-! ### The end of a block and of an entry (43 R256, R257) -/

/-- With all of the output there PROG_FILE is USIZE at the end of the step (44 R312). -/
theorem progFile_endOfStep (h : Reading s) (hfull : s.outPtr = s.usize) :
    (counterUpdate (commitCursor s)).progFile = s.usize := by
  obtain ⟨hprog, _⟩ := countersFollow_counterUpdate (commitCursor s) (commitCursor s) rfl rfl
  have hmax : max s.progFile.toNat s.outPtr.toNat = s.usize.toNat := by
    rw [hfull, Nat.max_eq_right h.settled.progress]
  exact BitVec.eq_of_toNat_eq (hprog.trans hmax)

theorem finish (h : Reading s) : RuleSound (finish s) := by
  rcases finish_cases s with ⟨_, e⟩ | ⟨hfull, _⟩
  · rw [e]
    exact .error ..
  · rw [finish_of_full hfull]
    refine .ok (Settled.inv_of_stopped { h.settled_endOfStep with } ⟨rfl, rfl⟩ (by simp) rfl ?_ (by simp) (by simp)
      fun _ => ⟨⟨h.progFile_endOfStep hfull, hfull⟩, ?_⟩)
    · exact ⟨iff_of_false (not_not.2 h.errcode) (by simp), iff_of_false (h.errcode.trans_ne (by decide)) (by simp)⟩
    · exact (retain_getLast? ..).trans List.getLast?_concat

theorem endOfBlock (h : Reading s) (hm : s.method ≠ 0) : RuleSound (endOfBlock s) := by
  rcases endOfBlock_cases s with ⟨_, e⟩ | ⟨_, e⟩ <;> rw [e]
  · exact h.finish
  · exact ok (s := { s with dstate := .blkHdr }) { h with settled := { h.settled with } } hm

/-! ### Block headers and stored bytes (43 R242-R245, R260) -/

theorem latchBlock (h : Reading s) (f : Bool) {b : BitVec 2} (hb : b ≠ 3) (d : DState) :
    Reading (latchBlock f b d s) :=
  { h with settled := { h.settled with blockType := hb } }

theorem loadFixed (h : Reading s) : Reading (loadFixed s) :=
  { h with settled := { h.settled with
      alphabets := ⟨h.settled.alphabets.1, symbolsBelow_tFixLit, symbolsBelow_tFixDist⟩ } }

theorem storedHeader (h : Reading s) (hm : s.method ≠ 0) (haligned : s.npos.toNat % 8 = 0) (len nlen : BitVec 16) :
    RuleSound (storedHeader len nlen s) := by
  refine .ite (fun _ => .error ..) fun _ => .ite (fun _ => ?_) fun hlen => ?_
  · exact endOfBlock (s := { s with storedRem := len }) { h with settled := { h.settled with } } hm
  · exact ok (s := { s with storedRem := len, dstate := .storedData }) { h with settled := { h.settled with } }
      ⟨hm, hlen, haligned⟩

/-- A byte appended where there is room (42 R212). -/
theorem putByte (h : Reading s) (hroom : s.outPtr.toNat < s.usize.toNat) (b : Byte) : Reading (putByte b s) := by
  have hptr : (Machine.putByte b s).outPtr.toNat ≤ s.outPtr.toNat + 1 := Nat.mod_le _ _
  obtain ⟨hin, hout⟩ := h.settled.memory
  obtain ⟨hrecv, hcsize, _, husize⟩ := h.settled.sizes
  exact { h with settled := { h.settled with
    memory := ⟨hin, Memory.wf_write _ _ _ hout⟩
    sizes := ⟨hrecv, hcsize, hptr.trans hroom, husize⟩ } }

theorem outAppend (h : Reading s) (hready : Ready s s.npos.toNat) (b : Byte) : RuleSound (outAppend b s) :=
  .ite (fun _ => .error ..) fun hroom => (h.putByte (Nat.lt_of_not_le hroom) b).ok hready

theorem storedByte (h : Reading s) (hd : s.dstate = .storedData) (hm : s.method ≠ 0)
    (haligned : s.npos.toNat % 8 = 0) (b : Byte) : RuleSound (storedByte b s) := by
  unfold Machine.storedByte
  rcases Nat.lt_or_ge s.outPtr.toNat s.usize.toNat with hroom | hfull
  · rw [outAppend_ok b s hroom]
    have hnext : Reading (countStored (Machine.putByte b s)) :=
      { h.putByte hroom b with settled := { (h.putByte hroom b).settled with } }
    exact .ite (fun _ => hnext.endOfBlock hm) fun hrem =>
      hnext.ok ((ready_storedData (s := countStored (Machine.putByte b s)) hd).2 ⟨hm, hrem, haligned⟩)
  · rw [outAppend_full b s hfull]
    exact .error ..

theorem finishIfFull (h : Reading s) (hready : Ready s s.npos.toNat) : RuleSound (finishIfFull s) :=
  .ite (fun _ => h.finish) fun _ => h.ok hready

theorem rawByte (h : Reading s) (hready : Ready s s.npos.toNat) (b : Byte) : RuleSound (rawByte b s) := by
  refine .ite (fun hroom => ?_) fun _ => h.finishIfFull hready
  rw [outAppend_ok b s hroom]
  exact (h.putByte hroom b).finishIfFull hready

/-! ### The dynamic header (43 R247-R250; 41 R182) -/

theorem dynamicCounts (h : Reading s) (hm : s.method ≠ 0) (l d : BitVec 5) (c : BitVec 4) :
    RuleSound (dynamicCounts l.toNat d.toNat c.toNat s) := by
  refine .ite (fun _ => .error ..) fun hl => .ite (fun _ => .error ..) fun hd => ?_
  have hc := c.isLt
  unfold hlitOf at hl ⊢
  unfold hdistOf at hd ⊢
  unfold hclenOf
  have hlit : (BitVec.ofNat 9 (l.toNat + 257)).toNat = l.toNat + 257 := Nat.mod_eq_of_lt (by omega)
  have hdist : (BitVec.ofNat 6 (d.toNat + 1)).toNat = d.toNat + 1 := Nat.mod_eq_of_lt (by omega)
  have hclen : (BitVec.ofNat 5 (c.toNat + 4)).toNat = c.toNat + 4 := Nat.mod_eq_of_lt (by omega)
  refine ok { h with settled := { h.settled with } } ⟨hm, ⟨?_, ?_, ?_, ?_⟩, ?_, ?_⟩
  · exact hlit.symm ▸ Nat.le_add_left 257 _
  · exact hlit.trans_le (by omega)
  · exact hdist.symm ▸ Nat.le_add_left 1 _
  · exact hdist.trans_le (by omega)
  · exact hclen.symm ▸ Nat.le_add_left 4 _
  · exact hclen.trans_le (by omega)

theorem buildCl (h : Reading s) (hm : s.method ≠ 0) (hcounts : CountsInRange s) (ls : List (BitVec 3)) :
    RuleSound (buildCl ls s) := by
  have hlit : 257 ≤ s.hlit.toNat := hcounts.1
  have halphabet : symbolsBelow (tableOf (clLengths ls) 7) 19 :=
    length_clLengths ls ▸ symbolsBelow_tableOf (clLengths ls) 7 (by simp) (by simp)
  cases hover : overSubscribed (clLengths ls) 7 with
  | true =>
    rw [buildCl_of_overSubscribed hover]
    exact .error ..
  | false =>
    rw [buildCl_of_legal hover]
    exact ok { h with settled := { h.settled with alphabets := ⟨halphabet, h.settled.alphabets.2⟩ } }
      ⟨hm, hcounts, Nat.lt_of_lt_of_le (Nat.zero_lt_succ 256) (hlit.trans (Nat.le_add_right _ _)), rfl⟩

theorem buildDynamic (h : Reading s) (hm : s.method ≠ 0) : RuleSound (buildDynamic s) := by
  have hlit : (litLengths s).length = 288 := by simp [litLengths, Config.litSyms]
  have hdist : (distLengths s).length = 32 := by simp [distLengths, Config.distSyms]
  rcases buildDynamic_cases s with ⟨_, e⟩ | ⟨_, _, e⟩ | ⟨_, _, _, e⟩ | ⟨_, _, _, e⟩ <;> rw [e]
  · exact .error ..
  · exact .error ..
  · exact .error ..
  · refine ok { h with settled := { h.settled with alphabets := ⟨h.settled.alphabets.1, ?_, ?_⟩ } } ⟨hm, rfl, rfl⟩
    · exact hlit ▸ symbolsBelow_tableOf (litLengths s) 15 (by omega) (by omega)
    · exact hdist ▸ symbolsBelow_tableOf (distLengths s) 15 (by omega) (by omega)

theorem writeRun (h : Reading s) (v : BitVec 4) (r : Nat) : Reading (writeRun v r s) :=
  { h with settled := { h.settled with lengths := (setRun_length ..).trans h.settled.lengths } }

theorem applyRun (h : Reading s) (hd : s.dstate = .dynLens) (hready : Ready s s.npos.toNat) (v : BitVec 4) (r : Nat) :
    RuleSound (applyRun v r s) := by
  obtain ⟨hm, hcounts, _, hcl⟩ := (ready_dynLens hd).1 hready
  rcases applyRun_cases v r s with ⟨_, e⟩ | ⟨_, e⟩ | ⟨hlt, e⟩ <;> rw [e]
  · exact .error ..
  · exact (h.writeRun v r).buildDynamic hm
  · have htotal : totalLengths s ≤ 316 := by
      simp only [CountsInRange, totalLengths] at hcounts ⊢
      omega
    have hlidx := writeRun_lidx_toNat v (show s.lidx.toNat + r < 2 ^ 9 by omega)
    exact (h.writeRun v r).ok
      ((ready_dynLens (s := Machine.writeRun v r s) hd).2 ⟨hm, hcounts, hlidx.trans_lt hlt, hcl⟩)

theorem repeatPrevious (h : Reading s) (hd : s.dstate = .dynLens) (hready : Ready s s.npos.toNat) (r : Nat) :
    RuleSound (repeatPrevious r s) :=
  .ite (fun _ => .error ..) fun _ => h.applyRun hd hready _ _

/-! ### Matches (42 R214; 43 R253, R255) -/

theorem outCopy (h : Reading s) (hready : Ready s s.npos.toNat) (len dist : Nat) : RuleSound (outCopy len dist s) := by
  rcases outCopy_cases len dist s with ⟨_, e⟩ | ⟨_, _, _, e⟩ | ⟨_, _, hroom, e⟩ <;> rw [e]
  · exact .error ..
  · exact .error ..
  · obtain ⟨hin, hout⟩ := h.settled.memory
    obtain ⟨hrecv, hcsize, _, husize⟩ := h.settled.sizes
    have hptr := copyLoop_outPtr dist len s (Nat.lt_of_le_of_lt hroom s.usize.isLt)
    have hwf := copyLoop_wf dist len s hout
    rw [copyLoop_frame]
    exact ok { h with settled := { h.settled with
      memory := ⟨hin, hwf⟩, sizes := ⟨hrecv, hcsize, hptr.trans_le hroom, husize⟩ } } hready

theorem matchField (h : Reading s) (hready : Ready s s.npos.toNat) (sym e d x : Nat) :
    RuleSound (matchField sym e d x s) :=
  .ite (fun _ => .error ..) fun _ =>
    outCopy (s := { s with mlen := BitVec.ofNat 9 (matchLength sym e) }) { h with settled := { h.settled with } } hready
      _ _

end Reading

end Sys2Proof.Machine

namespace Sys2Proof

open Machine

/-! ## No element is refused (41 R179, R182; 40 R149; log 13) -/

/-- The result is none of the reads that the spec says no rule makes. -/
def NotRefused {α : Type} (x : Except Raise α) : Prop := ∀ u, x ≠ .error (.outside u)

namespace NotRefused

section
variable {α β : Type}

theorem ok (a : α) : NotRefused (.ok a) := nofun

theorem error (c : ErrCode) (a x : Nat) : NotRefused (α := α) (.error (.error c a x)) := nofun

theorem underrun (n a : Nat) : NotRefused (α := α) (.error (.underrun n a)) := nofun

theorem bind {x : Except Raise α} {f : α → Except Raise β} (hx : NotRefused x)
    (hf : ∀ a, x = .ok a → NotRefused (f a)) : NotRefused (x >>= f) := by
  intro u hu
  rcases except_bind_error hu with hu | ⟨a, ha, hu⟩
  · exact hx u hu
  · exact hf a ha u hu

theorem ite {c : Prop} [Decidable c] {x y : Except Raise α} (hx : c → NotRefused x) (hy : ¬ c → NotRefused y) :
    NotRefused (if c then x else y) := by
  split
  · exact hx ‹_›
  · exact hy ‹_›

end

variable {st : Stream}

theorem readBits {n : Nat} (hn : n ≤ 16) (p : Nat) : NotRefused (readBits st n p) := by
  rcases readBits_cases st n p with ⟨hwide, _⟩ | ⟨_, _, e⟩ | ⟨_, _, e⟩
  · omega
  · rw [e]
    exact underrun _ _
  · rw [e]
    exact ok _

theorem readOneByte (ho : st.order = .lsb) (p : Nat) : NotRefused (readOneByte st p) := by
  rcases readOneByte_lsb st p ho with ⟨_, e⟩ | ⟨_, e⟩ <;> rw [e]
  · exact underrun _ _
  · exact ok _

theorem huffDecode {t : HuffTable} (hbuilt : t.built = true) (p : Nat) : NotRefused (huffDecode t st p) := by
  intro u hu
  rw [Machine.huffDecode, if_pos hbuilt] at hu
  rcases huffLoop_error hu with ⟨_, h⟩ | ⟨_, _, h⟩ <;> cases h

theorem readLengths (n p : Nat) : NotRefused (readLengths st n p) := by
  induction n generalizing p with
  | zero => exact ok _
  | succ n ih => exact (readBits (by omega) p).bind fun (_, q) _ => (ih q).bind fun _ _ => ok _

theorem decodeRawByte (ho : st.order = .lsb) (full : Bool) (p : Nat) : NotRefused (decodeRawByte full st p) :=
  .ite (fun _ => ok _) fun _ => (readOneByte ho p).bind fun _ _ => ok _

theorem decodeBlockHeader (p : Nat) : NotRefused (decodeBlockHeader st p) :=
  (readBits (by omega) p).bind fun (_, q) _ => (readBits (by omega) q).bind fun _ _ => ok _

theorem decodeStoredHdr (p : Nat) : NotRefused (decodeStoredHdr st p) :=
  (readBits (by omega) _).bind fun (_, q) _ => (readBits (by omega) q).bind fun _ _ => ok _

theorem decodeStoredByte (ho : st.order = .lsb) (p : Nat) : NotRefused (decodeStoredByte st p) :=
  (readOneByte ho p).bind fun _ _ => ok _

theorem decodeDynCounts (p : Nat) : NotRefused (decodeDynCounts st p) :=
  (readBits (by omega) p).bind fun (_, q) _ => (readBits (by omega) q).bind fun (_, r) _ =>
    (readBits (by omega) r).bind fun _ _ => ok _

theorem decodeDynCllen (n p : Nat) : NotRefused (decodeDynCllen n st p) := (readLengths n p).bind fun _ _ => ok _

/-- A code-length symbol is one of the 19 of the alphabet (41 R182). -/
theorem decodeClSymbol {t : HuffTable} (hbuilt : t.built = true) (hsym : symbolsBelow t 19) (lidx p : Nat) :
    NotRefused (decodeClSymbol t lidx st p) := by
  refine (huffDecode hbuilt p).bind fun (s, q) hs => ?_
  obtain ⟨_, _, _, i, rfl⟩ := huffDecode_ok hs
  have hlt := symAt_lt hsym (by omega) i
  refine .ite (fun _ => ok _) fun _ => .ite (fun _ => ?_) fun _ => .ite (fun _ => ?_) fun _ =>
    .ite (fun _ => ?_) fun _ => ?_
  · exact .ite (fun _ => ok _) fun _ => (readBits (by omega) q).bind fun _ _ => ok _
  · exact (readBits (by omega) q).bind fun _ _ => ok _
  · exact (readBits (by omega) q).bind fun _ _ => ok _
  · omega

theorem readDistance {t : HuffTable} (hbuilt : t.built = true) (start p : Nat) :
    NotRefused (readDistance t start st p) :=
  (huffDecode hbuilt p).bind fun (d, q) _ => .ite (fun _ => error _ _ _) fun hd => .ite (fun _ => ok _) fun _ =>
    (readBits ((distanceExtra_le d (Nat.lt_of_not_le hd)).trans (by omega)) q).bind fun _ _ => ok _

/-- No length symbol has more than 5 extra bits (30 R100). -/
theorem lengthExtra_le (sym : Nat) : lengthExtra sym ≤ 5 := by
  have hrows : ∀ row ∈ lengthTable, row.2 ≤ 5 := by decide
  rw [lengthExtra, List.getD_eq_getElem?_getD]
  cases hrow : lengthTable[sym - 257]? with
  | none => exact Nat.zero_le 5
  | some row => exact hrows row (List.mem_of_getElem? hrow)

theorem decodeMatch {t : HuffTable} (hbuilt : t.built = true) (s start p : Nat) :
    NotRefused (decodeMatch t s start st p) :=
  (readBits ((lengthExtra_le s).trans (by omega)) p).bind fun (_, q) _ =>
    (readDistance hbuilt start q).bind fun _ _ => ok _

theorem decodeData {tLit tDist : HuffTable} (hlit : tLit.built = true) (hdist : tDist.built = true) (p : Nat) :
    NotRefused (decodeData tLit tDist st p) :=
  (huffDecode hlit p).bind fun (s, q) _ => .ite (fun _ => ok _) fun _ => .ite (fun _ => ok _) fun _ =>
    .ite (fun _ => decodeMatch hdist s p q) fun _ => .ite (fun _ => ok _) fun _ => .ite (fun _ => ok _) fun _ =>
      error _ _ _

end NotRefused

/-- The position after an element is inside the delivered input (40 R140, R144). -/
theorem decodeElement_le_avail {c : DecodeCtx} {start p q : Nat} {st : Stream} {i : Instr} (ho : st.order = .lsb)
    (hmatch : c.inMatch = false) (hp : p ≤ st.avail) (h : decodeElement c start st p = .ok (i, q)) : q ≤ st.avail := by
  unfold decodeElement at h
  cases hd : c.dstate <;> simp only [hd] at h
  case none => cases h
  case raw =>
    rcases decodeRawByte_ok ho h with ⟨_, rfl, _⟩ | ⟨_, _, hq, _⟩
    · exact hp
    · exact hq
  case blkHdr =>
    obtain ⟨_, hq, _⟩ := decodeBlockHeader_ok h
    exact hq
  case storedHdr =>
    obtain ⟨_, hq, _⟩ := decodeStoredHdr_ok h
    exact hq
  case storedData =>
    obtain ⟨_, hq, _⟩ := decodeStoredByte_ok ho h
    exact hq
  case dynCounts =>
    obtain ⟨_, hq, _⟩ := decodeDynCounts_ok h
    exact hq
  case dynCllen =>
    obtain ⟨hq, hle, _⟩ := decodeDynCllen_ok h
    rcases Nat.eq_zero_or_pos c.hclen with h0 | hpos
    · rw [hq, h0]
      exact hp
    · exact hle hpos
  case dynLens =>
    obtain ⟨_, hq, _⟩ := decodeClSymbol_ok h
    exact hq
  case huffData =>
    rw [hmatch] at h
    obtain ⟨_, hq, _⟩ := decodeData_ok h
    exact hq

end Sys2Proof

namespace Sys2Proof.Machine

/-! ## A step keeps the invariant (44 R314) -/

/-- The rule of an element that was read where it was ready is sound, DSTATE by DSTATE. -/
theorem Reading.exec_sound {u : State} (hu : Reading u) {c : DecodeCtx} {st : Stream} {start p q : Nat} {i : Instr}
    (hc : u.dstate = c.dstate) (hmatch : c.inMatch = false) (ho : st.order = .lsb) (hready : Ready u p)
    (hnext : u.npos.toNat = q) (h : decodeElement c start st p = .ok (i, q)) :
    ∃ x, exec i u = runElement u x ∧ RuleSound x := by
  obtain ⟨_, _, haligned⟩ := alignByte_spec p
  unfold decodeElement at h
  cases hd : c.dstate <;> simp only [hd] at h <;> have hd := hc.trans hd
  case none => cases h
  case raw =>
    obtain ⟨hm, hp⟩ := (ready_raw hd).1 hready
    rcases decodeRawByte_ok ho h with ⟨_, rfl, rfl⟩ | ⟨_, hq, _, rfl⟩
    · exact ⟨_, rfl, hu.rawByte ((ready_raw hd).2 ⟨hm, by omega⟩) _⟩
    · exact ⟨_, rfl, hu.rawByte ((ready_raw hd).2 ⟨hm, by omega⟩) _⟩
  case blkHdr =>
    have hm := (ready_blkHdr hd).1 hready
    obtain ⟨_, _, f, rfl | rfl | rfl | rfl⟩ := decodeBlockHeader_ok h
    · exact ⟨_, rfl, (hu.latchBlock f (b := 0) (by decide) .storedHdr).ok hm⟩
    · exact ⟨_, rfl, (hu.latchBlock f (b := 1) (by decide) .huffData).loadFixed.ok ⟨hm, rfl, rfl⟩⟩
    · exact ⟨_, rfl, (hu.latchBlock f (b := 2) (by decide) .dynCounts).ok hm⟩
    · exact ⟨_, rfl, .error ..⟩
  case storedHdr =>
    have hm := (ready_storedHdr hd).1 hready
    obtain ⟨hq, _, len, nlen, rfl⟩ := decodeStoredHdr_ok h
    exact ⟨_, rfl, hu.storedHeader hm (by omega) len nlen⟩
  case storedData =>
    obtain ⟨hm, _, _⟩ := (ready_storedData hd).1 hready
    obtain ⟨hq, _, rfl⟩ := decodeStoredByte_ok ho h
    exact ⟨_, rfl, hu.storedByte hd hm (by omega) _⟩
  case dynCounts =>
    have hm := (ready_dynCounts hd).1 hready
    obtain ⟨_, _, l, d, n, rfl⟩ := decodeDynCounts_ok h
    exact ⟨_, rfl, hu.dynamicCounts hm l d n⟩
  case dynCllen =>
    obtain ⟨hm, hcounts, _⟩ := (ready_dynCllen hd).1 hready
    obtain ⟨_, _, ls, rfl, _⟩ := decodeDynCllen_ok h
    exact ⟨_, rfl, hu.buildCl hm hcounts ls⟩
  case dynLens =>
    have hready : Ready u u.npos.toNat := (ready_dynLens hd).2 ((ready_dynLens hd).1 hready)
    obtain ⟨_, _, ⟨n, rfl⟩ | ⟨r, rfl⟩ | ⟨r, rfl⟩ | ⟨r, rfl⟩⟩ := decodeClSymbol_ok h
    · exact ⟨_, rfl, hu.applyRun hd hready _ _⟩
    · exact ⟨_, rfl, hu.repeatPrevious hd hready _⟩
    · exact ⟨_, rfl, hu.applyRun hd hready _ _⟩
    · exact ⟨_, rfl, hu.applyRun hd hready _ _⟩
  case huffData =>
    obtain ⟨hm, hbuilt⟩ := (ready_huffData hd).1 hready
    have hready : Ready u u.npos.toNat := (ready_huffData hd).2 ⟨hm, hbuilt⟩
    rw [hmatch] at h
    obtain ⟨_, _, ⟨b, rfl⟩ | rfl | rfl | rfl | ⟨sym, e, d, x, hfields, _⟩⟩ := decodeData_ok h
    · exact ⟨_, rfl, hu.outAppend hready b⟩
    · exact ⟨_, rfl, hu.endOfBlock hm⟩
    · exact ⟨_, rfl, .error ..⟩
    · exact ⟨_, rfl, .error ..⟩
    · exact ⟨_, exec_match hfields _, hu.matchField hready sym e d x⟩

section
variable {s : State}

/-- Between two turns the next element is read at the cursor and no match is open (20 R68). -/
theorem Inv.fetchElement_eq (h : Inv s) :
    fetchElement s = decodeElement (decodeCtx s) s.pos.toNat (streamOf s) s.pos.toNat := by
  rw [fetchElement, readPosition, if_pos h.atomic.2]

theorem Inv.not_inMatch (h : Inv s) : (decodeCtx s).inMatch = false := by simp [decodeCtx, h.atomic.2]

/-- In RUN no fetch is refused (41 R179, R182; 10 R28). -/
theorem Inv.notRefused_fetchElement (h : Inv s) (hrun : s.state = .run) : NotRefused (fetchElement s) := by
  have hready := h.ready hrun
  have ho : (streamOf s).order = .lsb := h.bitOrder
  obtain ⟨hsym, _⟩ := h.alphabets
  rw [h.fetchElement_eq, decodeElement]
  cases hd : s.dstate with
  | none => exact absurd hrun (h.selection.1 hd)
  | raw => simpa only [decodeCtx, hd] using NotRefused.decodeRawByte ho _ _
  | blkHdr => simpa only [decodeCtx, hd] using NotRefused.decodeBlockHeader _
  | storedHdr => simpa only [decodeCtx, hd] using NotRefused.decodeStoredHdr _
  | storedData => simpa only [decodeCtx, hd] using NotRefused.decodeStoredByte ho _
  | dynCounts => simpa only [decodeCtx, hd] using NotRefused.decodeDynCounts _
  | dynCllen => simpa only [decodeCtx, hd] using NotRefused.decodeDynCllen _ _
  | dynLens =>
    obtain ⟨_, _, _, hcl⟩ := (ready_dynLens hd).1 hready
    simpa only [decodeCtx, hd] using NotRefused.decodeClSymbol hcl hsym _ _
  | huffData =>
    obtain ⟨_, hlit, hdist⟩ := (ready_huffData hd).1 hready
    simpa [decodeCtx, hd, h.atomic.2] using NotRefused.decodeData hlit hdist _

/-- What the engine reads in RUN: the state in which the element runs, and the position after it. -/
theorem Inv.reading (h : Inv s) (hrun : s.state = .run) {i : Instr} {q : Nat} (hfetch : fetchElement s = .ok (i, q)) :
    Reading { s with npos := BitVec.ofNat 32 q } ∧ (BitVec.ofNat 32 q).toNat = q := by
  rw [h.fetchElement_eq] at hfetch
  have hq : q ≤ 8 * s.inRecv.toNat :=
    decodeElement_le_avail (st := streamOf s) h.bitOrder h.not_inMatch h.cursor hfetch
  have hcap : s.cfg.inCap < 2 ^ 29 := by
    have hcfg := h.config
    simp only [Config.wf, Bool.and_eq_true, decide_eq_true_eq] at hcfg
    omega
  obtain ⟨hrecv, hcsize, _⟩ := h.sizes
  have hnext : (BitVec.ofNat 32 q).toNat = q := Nat.mod_eq_of_lt (by omega)
  exact ⟨⟨{ h.settled with }, hrun, h.errcode_of_run hrun, hnext.trans_le hq⟩, hnext⟩

/-- The engine's turn: an element, a raise, or nothing outside RUN (43 R241). -/
theorem Inv.inv_engineWork (h : Inv s) : ∃ t, (engineWork s).outcome = .next t ∧ Inv t := by
  by_cases hrun : s.state = .run
  · rcases engineWork_run s hrun with ⟨i, q, hfetch, e⟩ | ⟨r, hfetch, e⟩ <;> rw [e]
    · obtain ⟨hu, hnext⟩ := h.reading hrun hfetch
      rw [h.fetchElement_eq] at hfetch
      obtain ⟨x, hexec, hsound⟩ :=
        hu.exec_sound (st := streamOf s) rfl h.not_inMatch h.bitOrder (h.ready hrun) hnext hfetch
      rw [Work.outcome_run, hexec]
      exact hsound.runElement hu.settled
    · cases r with
      | error c a x => exact ⟨_, rfl, h.settled.inv_raiseError c a x⟩
      | underrun n a => exact ⟨_, rfl, h.settled.inv_raiseUnderrun n a⟩
      | outside u => exact absurd hfetch (h.notRefused_fetchElement hrun u)
  · rw [engineWork_idle s hrun]
    exact ⟨s, rfl, h⟩

/-- Every turn answers a next state that meets the invariant (20 R70). -/
theorem Inv.inv_turnWork (h : Inv s) (τ : Turn) : ∃ t, (turnWork τ s).outcome = .next t ∧ Inv t := by
  cases τ with
  | engine => exact h.inv_engineWork
  | hardReset => exact ⟨_, rfl, inv_hardReset h.config⟩
  | regWrite offset size w => exact h.inv_registerWriteWork offset size w
  | regRead offset size => exact ⟨_, rfl, h.inv_readRegister offset size⟩
  | inWrite a b => exact ⟨_, rfl, h.inv_writeIn a b⟩
  | outRead a => exact ⟨_, rfl, h.inv_readOut a⟩
  | outWrite a b => exact ⟨_, rfl, h.inv_writeOut a b⟩

end

/-- Settles O52: a step is its turn, taken off the schedule, and every turn keeps the invariant. In RUN no fetch is
refused (`Inv.notRefused_fetchElement`), and the rule of the element that was read is sound (`Reading.exec_sound`). -/
theorem stepKeepsTheInvariantAndNeverStops : Obligations.StepKeepsTheInvariantAndNeverStops := by
  intro s h
  rw [step_eq_turnWork]
  exact (h.setSched s.sched.tail).inv_turnWork (nextTurn s)

end Sys2Proof.Machine

namespace Sys2Proof.Machine

/-! ## The progress counters (44 R312; 10 R36) -/

/-- PROG_FILE and PROG_TOTAL. -/
def counters (s : State) : Word × BitVec 64 := (s.progFile, s.progTotal)

/-- From `s` to `t` PROG_FILE does not decrease, and PROG_TOTAL grows by its increase. -/
def CountersGrow (s t : State) : Prop :=
  s.progFile.toNat ≤ t.progFile.toNat ∧
    t.progTotal = s.progTotal + BitVec.ofNat 64 (t.progFile.toNat - s.progFile.toNat)

theorem CountersGrow.of_eq {s t : State} (h : counters t = counters s) : CountersGrow s t := by
  obtain ⟨hfile, htotal⟩ := Prod.mk.inj h
  rw [CountersGrow, hfile, htotal, Nat.sub_self]
  exact ⟨Nat.le_refl _, (BitVec.add_zero _).symm⟩

theorem CountersFollow.countersGrow {s t : State} (h : CountersFollow s t) : CountersGrow s t := by
  obtain ⟨hfile, htotal⟩ := h
  have hincrease : t.progFile.toNat - s.progFile.toNat = t.outPtr.toNat - s.progFile.toNat := by omega
  exact ⟨by omega, by rw [htotal, hincrease]⟩

/-- What a rule answers from `s`, if it does not raise, has the counters of `s`. -/
def RuleKeepsCounters (s : State) (x : Except Raise State) : Prop := ∀ u, x = .ok u → counters u = counters s

namespace RuleKeepsCounters

theorem ok {s u : State} (h : counters u = counters s) : RuleKeepsCounters s (.ok u) := fun _ hu => by cases hu; exact h

theorem error (s : State) (r : Raise) : RuleKeepsCounters s (.error r) := fun _ hu => by cases hu

theorem ite {s : State} {c : Prop} [Decidable c] {x y : Except Raise State} (hx : RuleKeepsCounters s x)
    (hy : RuleKeepsCounters s y) : RuleKeepsCounters s (if c then x else y) := by
  split
  · exact hx
  · exact hy

theorem illegalCommand (reason op : Nat) (s : State) : RuleKeepsCounters s (illegalCommand reason op s) := error _ _

theorem latchBlock (f : Bool) (b : BitVec 2) (d : DState) (s : State) :
    RuleKeepsCounters s (.ok (latchBlock f b d s)) := .ok rfl

theorem loadFixed (s : State) : RuleKeepsCounters s (.ok (loadFixed s)) := .ok rfl

theorem invalidLitlen (sym : Nat) (s : State) : RuleKeepsCounters s (invalidLitlen sym s) := error _ _

theorem outAppend (b : Byte) (s : State) : RuleKeepsCounters s (outAppend b s) := .ite (error _ _) (.ok rfl)

theorem outCopy (len dist : Nat) (s : State) : RuleKeepsCounters s (outCopy len dist s) := by
  refine .ite (error _ _) (.ite (error _ _) (.ok ?_))
  rw [copyLoop_frame]
  rfl

theorem distanceField (d x : Nat) (s : State) : RuleKeepsCounters s (distanceField d x s) :=
  .ite (error _ _) (outCopy _ _ s)

theorem matchField (sym e d x : Nat) (s : State) : RuleKeepsCounters s (matchField sym e d x s) :=
  distanceField d x { s with mlen := BitVec.ofNat 9 (matchLength sym e) }

theorem finish (s : State) : RuleKeepsCounters s (finish s) := .ite (error _ _) (.ok rfl)

theorem endOfBlock (s : State) : RuleKeepsCounters s (endOfBlock s) := .ite (finish s) (.ok rfl)

theorem storedHeader (len nlen : BitVec 16) (s : State) : RuleKeepsCounters s (storedHeader len nlen s) :=
  .ite (error _ _) (.ite (endOfBlock { s with storedRem := len }) (.ok rfl))

theorem storedByte (b : Byte) (s : State) : RuleKeepsCounters s (storedByte b s) := by
  unfold Machine.storedByte
  rcases Nat.lt_or_ge s.outPtr.toNat s.usize.toNat with hroom | hfull
  · rw [outAppend_ok b s hroom]
    exact .ite (endOfBlock (countStored (putByte b s))) (.ok rfl)
  · rw [outAppend_full b s hfull]
    exact error _ _

theorem finishIfFull (s : State) : RuleKeepsCounters s (finishIfFull s) := .ite (finish s) (.ok rfl)

theorem rawByte (b : Byte) (s : State) : RuleKeepsCounters s (rawByte b s) := by
  unfold Machine.rawByte
  split
  next hroom =>
    rw [outAppend_ok b s hroom]
    exact finishIfFull (putByte b s)
  next => exact finishIfFull s

theorem dynamicCounts (l d c : Nat) (s : State) : RuleKeepsCounters s (dynamicCounts l d c s) :=
  .ite (error _ _) (.ite (error _ _) (.ok rfl))

theorem buildCl (ls : List (BitVec 3)) (s : State) : RuleKeepsCounters s (buildCl ls s) := by
  unfold Machine.buildCl
  cases huffBuild 0 (clLengths ls) Config.maxBitsCl s.pos.toNat with
  | error r => exact error _ _
  | ok cl => exact .ok rfl

theorem buildDynamic (s : State) : RuleKeepsCounters s (buildDynamic s) := by
  rcases buildDynamic_cases s with ⟨_, e⟩ | ⟨_, _, e⟩ | ⟨_, _, _, e⟩ | ⟨_, _, _, e⟩ <;> rw [e]
  · exact error _ _
  · exact error _ _
  · exact error _ _
  · exact .ok rfl

theorem applyRun (v : BitVec 4) (r : Nat) (s : State) : RuleKeepsCounters s (applyRun v r s) :=
  .ite (error _ _) (.ite (buildDynamic (writeRun v r s)) (.ok rfl))

theorem repeatPrevious (r : Nat) (s : State) : RuleKeepsCounters s (repeatPrevious r s) :=
  .ite (error _ _) (applyRun _ _ s)

/-- A restart after an underrun keeps PROG_FILE (44 R307). -/
theorem appendInput (k : Word) (s : State) : RuleKeepsCounters s (appendInput k s) :=
  .ite (error _ _) (.ite (error _ _) (.ite (.ok rfl) (.ok rfl)))

end RuleKeepsCounters

/-- Errors and underruns leave the counters alone (60 R341, R345). -/
theorem counters_takeRaise {r : Raise} {s t : State} (ht : takeRaise r s = .next t) : counters t = counters s := by
  rcases takeRaise_next r s t ht with ⟨c, a, x, rfl⟩ | ⟨q, a, rfl, _⟩
  · rfl
  · rfl

theorem counters_runCommand {s t : State} {x : Except Raise State} (h : RuleKeepsCounters s x)
    (ht : runCommand s x = .next t) : counters t = counters s := by
  rcases runCommand_next s t x ht with hx | ⟨r, _, hr⟩
  · exact h t hx
  · exact counters_takeRaise hr

/-- The end of an engine step brings the counters up to OUT_PTR (44 R312). -/
theorem countersGrow_runElement {s t : State} {x : Except Raise State} (h : RuleKeepsCounters s x)
    (ht : runElement s x = .next t) : CountersGrow s t := by
  rcases runElement_next s t x ht with ⟨u, hx, rfl⟩ | ⟨r, _, hr⟩
  · obtain ⟨hfile, htotal⟩ := Prod.mk.inj (h u hx)
    exact (countersFollow_counterUpdate s (commitCursor u) hfile htotal).countersGrow
  · exact .of_eq (counters_takeRaise hr)

theorem countersGrow_exec_element {i : Instr} (hi : i.isCommand = false) {s t : State} (ht : exec i s = .next t) :
    CountersGrow s t := by
  cases hm : i.matchFields with
  | some f =>
    rw [exec_match (sym := f.1) (e := f.2.1) (d := f.2.2.1) (x := f.2.2.2) hm s] at ht
    exact countersGrow_runElement (.matchField _ _ _ _ s) ht
  | none =>
    cases hd : i.distanceFields with
    | some f =>
      rw [exec_distance (d := f.1) (x := f.2) hd s] at ht
      exact countersGrow_runElement (.distanceField _ _ s) ht
    | none =>
      cases i with
      | blockStored f => exact countersGrow_runElement (.latchBlock _ _ _ s) ht
      | blockFixed f => exact countersGrow_runElement (.loadFixed (latchBlock f 1 .huffData s)) ht
      | blockDynamic f => exact countersGrow_runElement (.latchBlock _ _ _ s) ht
      | blockReserved f => exact countersGrow_runElement (.error s (.error .invalidBlockType s.pos.toNat 3)) ht
      | storedHdr len nlen => exact countersGrow_runElement (.storedHeader _ _ s) ht
      | storedByte b => exact countersGrow_runElement (.storedByte b s) ht
      | dynCounts l d c => exact countersGrow_runElement (.dynamicCounts _ _ _ s) ht
      | dynCllen ls => exact countersGrow_runElement (.buildCl ls s) ht
      | clLen n => exact countersGrow_runElement (.applyRun _ _ s) ht
      | clRepeatPrev r => exact countersGrow_runElement (.repeatPrevious _ s) ht
      | clRepeatZeroShort r => exact countersGrow_runElement (.applyRun _ _ s) ht
      | clRepeatZeroLong r => exact countersGrow_runElement (.applyRun _ _ s) ht
      | lit b => exact countersGrow_runElement (.outAppend b s) ht
      | eob => exact countersGrow_runElement (.endOfBlock s) ht
      | litlenInvalid286 => exact countersGrow_runElement (.invalidLitlen _ s) ht
      | litlenInvalid287 => exact countersGrow_runElement (.invalidLitlen _ s) ht
      | rawByte b => exact countersGrow_runElement (.rawByte b s) ht
      | _ => simp [Instr.matchFields, Instr.distanceFields, Instr.isCommand] at hm hd hi

/-- The commands other than OPEN, CLOSE and START_ENTRY keep the counters (44 R302-R304, R307). -/
theorem counters_exec_command {i : Instr} (hi : i.isCommand = true) (hopen : i ≠ .openSession)
    (hclose : i ≠ .closeSession) (hstart : i ≠ .startEntry) {s t : State} (ht : exec i s = .next t) :
    counters t = counters s := by
  cases i
  case nop => exact counters_runCommand (s := s) (.ok rfl) ht
  case openSession => exact absurd rfl hopen
  case closeSession => exact absurd rfl hclose
  case startEntry => exact absurd rfl hstart
  case appendInput => exact counters_runCommand (.appendInput _ s) ht
  case illegalOpcode op => exact counters_runCommand (.illegalCommand _ _ s) ht
  all_goals contradiction

theorem countersGrow_engineWork {s t : State} (ht : (engineWork s).outcome = .next t) : CountersGrow s t := by
  by_cases hrun : s.state = .run
  · rcases engineWork_run s hrun with ⟨i, q, hfetch, e⟩ | ⟨r, _, e⟩ <;> rw [e] at ht
    · exact countersGrow_exec_element (s := { s with npos := BitVec.ofNat 32 q }) (decodeElement_isCommand hfetch) ht
    · exact .of_eq (counters_takeRaise ht)
  · rw [engineWork_idle s hrun] at ht
    cases ht
    exact .of_eq rfl

theorem counters_registerWriteWork {offset size : Nat} {w : Word} {s t : State}
    (hnew : ¬ (Turn.regWrite offset size w).startsAnew) (hentry : ¬ (Turn.regWrite offset size w).startsEntry)
    (ht : (registerWriteWork offset size w s).outcome = .next t) : counters t = counters s := by
  rcases registerWriteWork_cases offset size w s with ⟨why, _, e⟩ | ⟨hword, hcmd, e⟩ | ⟨_, _, e⟩ <;> rw [e] at ht
  · cases ht
    rfl
  · have hissues : (Turn.regWrite offset size w).issues = some w := if_pos ⟨hword, hcmd⟩
    exact counters_exec_command (decodeCommand_isCommand w) (fun hopen => hnew (.inr ⟨w, hissues, .inl hopen⟩))
      (fun hclose => hnew (.inr ⟨w, hissues, .inr hclose⟩)) (fun hstart => hentry ⟨w, hissues, hstart⟩) ht
  · cases ht
    rcases writeRegister_cases (offset / 4) w s with e | e | e | e <;> rw [e] <;> rfl

/-- The counters after a turn that starts neither anew nor an entry. -/
theorem countersGrow_turnWork {τ : Turn} (hnew : ¬ τ.startsAnew) (hentry : ¬ τ.startsEntry) {s t : State}
    (ht : (turnWork τ s).outcome = .next t) : CountersGrow s t := by
  cases τ with
  | engine => exact countersGrow_engineWork ht
  | hardReset => exact absurd (.inl rfl) hnew
  | regWrite offset size w => exact .of_eq (counters_registerWriteWork hnew hentry ht)
  | regRead offset size =>
    cases ht
    rcases readRegister_cases offset size s with ⟨why, e⟩ | ⟨v, e⟩ <;> rw [e] <;> exact .of_eq rfl
  | inWrite a b =>
    cases ht
    rcases writeIn_cases a b s with ⟨why, e⟩ | ⟨_, _, _, _, e⟩ <;> rw [e] <;> exact .of_eq rfl
  | outRead a =>
    cases ht
    rcases readOut_cases a s with ⟨_, e⟩ | ⟨_, _, _, e⟩ | ⟨_, _, e⟩ <;> rw [e] <;> exact .of_eq rfl
  | outWrite a b =>
    cases ht
    obtain ⟨why, e⟩ := writeOut_eq a b s
    rw [e]
    exact .of_eq rfl

/-- Settles O56: the counters move at the end of an engine step only, where they follow OUT_PTR. -/
theorem progressNeverDecreases : Obligations.ProgressNeverDecreases := by
  intro s t hstep hnew hentry
  rw [step_eq_turnWork] at hstep
  exact countersGrow_turnWork (s := { s with sched := s.sched.tail }) hnew hentry hstep

end Sys2Proof.Machine

namespace Sys2Proof.Machine

/-! ## Commands (44 R300-R308) -/

/-- A whole-word write to CMD runs the command (44 R300, R311). -/
theorem step_commandWord {s : State} {w : Word} {rest : List Turn} (h : s.sched = .regWrite 0 4 w :: rest) :
    step s = exec (decodeCommand w) { s with sched := rest } := by
  rw [step_of_sched h]
  rfl

/-- Settles O13: the turn is a write to CMD, and withFetchWord puts one first. -/
theorem stepRunsTheCommandWord : Obligations.StepRunsTheCommandWord := by
  refine ⟨fun s w rest h => step_commandWord h, fun s w => ?_⟩
  have hword : BitVec.ofNat 32 (w % 2 ^ 32) = BitVec.ofNat 32 w := BitVec.eq_of_toNat_eq (by simp)
  rw [← hword]
  exact step_commandWord (s := s.withFetchWord 32 w) rfl

/-- Settles O18: the rule of NOP is the state as it stands. -/
theorem nopHasNoEffect : Obligations.NopHasNoEffect := fun _ => rfl

/-- Settles O19: both commands are `sessionReset`, field by field. -/
theorem openAndCloseClearTheSession : Obligations.OpenAndCloseClearTheSession := by
  intro s i dest h
  have hexec : exec i s = .next (sessionReset dest s) := by
    rcases h with ⟨rfl, rfl⟩ | ⟨rfl, rfl⟩ <;> rfl
  refine ⟨_, hexec, ?_⟩
  and_intros <;> intros <;> rfl

/-- Settles O24: the rule of the row is the raise. -/
theorem illegalOpcodeRaises : Obligations.IllegalOpcodeRaises := fun _ _ _ => ⟨_, rfl, raised_raiseError ..⟩

/-! ### START_ENTRY (44 R304, R305) -/

theorem startLegal_iff (st : EState) : startLegal st = true ↔ st = .idle ∨ st = .done ∨ st = .error := by
  cases st <;> simp [startLegal]

/-- The method is the low byte of ARG0 (44 R304). -/
theorem startMethod_eq (a0 : Word) : startMethod a0 = BitVec.ofNat 8 a0.toNat :=
  BitVec.eq_of_toNat_eq (by simp [startMethod])

section
variable {a0 cs us : Word} {s : State}

theorem startEntry_of_illegal (h : startLegal s.state = false) :
    startEntry a0 cs us s = illegalCommand 2 0x03 s := if_pos h

variable (hlegal : startLegal s.state = true)
include hlegal

theorem startEntry_of_over (h : s.cfg.inCap ≤ cs.toNat ∨ s.cfg.outCap < us.toNat) :
    startEntry a0 cs us s = illegalCommand 3 0x03 s := by
  rw [startEntry, if_neg (by simp [hlegal]), if_pos h]

variable (hcs : cs.toNat < s.cfg.inCap) (hus : us.toNat ≤ s.cfg.outCap)
include hcs hus

theorem startEntry_of_unsupported (h : startMethod a0 ≠ 0 ∧ startMethod a0 ≠ 8) :
    startEntry a0 cs us s = .error (.error .unsupportedCompressionMethod s.pos.toNat (startMethod a0).toNat) := by
  rw [startEntry, if_neg (by simp [hlegal]), if_neg (by omega), if_pos h]

variable (hmethod : startMethod a0 = 0 ∨ startMethod a0 = 8)
include hmethod

theorem startEntry_of_broken (h : startSolid a0 = true ∧ s.taint = true) :
    startEntry a0 cs us s = .error (.error .historyBroken s.pos.toNat 0) := by
  rw [startEntry, if_neg (by simp [hlegal]), if_neg (by omega), if_neg (by tauto), if_pos h]

variable (hsolid : ¬ (startSolid a0 = true ∧ s.taint = true))
include hsolid

theorem startEntry_of_unequal (h : startMethod a0 = 0 ∧ cs ≠ us) :
    startEntry a0 cs us s = .error (.error .lengthMismatch s.pos.toNat cs.toNat) := by
  rw [startEntry, if_neg (by simp [hlegal]), if_neg (by omega), if_neg (by tauto), if_neg hsolid, if_pos h]

theorem startEntry_of_accepted (h : startMethod a0 = 0 → cs = us) :
    startEntry a0 cs us s = .ok (beginEntry (startMethod a0) (startSolid a0) cs us s) := by
  rw [startEntry, if_neg (by simp [hlegal]), if_neg (by omega), if_neg (by tauto), if_neg hsolid, if_neg (by tauto)]

end

/-- Settles O21, check by check. -/
theorem startEntryChecksInOrder : Obligations.StartEntryChecksInOrder := by
  rintro s m sol hm rfl
  obtain rfl := hm.trans (startMethod_eq s.arg0).symm
  refine ⟨fun hstate => ?_, fun hstate => ?_⟩
  · have hbody := startEntry_of_illegal (a0 := s.arg0) (cs := s.arg1) (us := s.arg2) (s := s) (by
      rcases hstate with h | h | h <;> rw [h] <;> rfl)
    exact ⟨_, congrArg (runCommand s) hbody, raised_raiseError ..⟩
  · have hlegal := (startLegal_iff s.state).2 hstate
    refine ⟨fun hover => ?_, fun hcs hus => ⟨fun hmethod => ?_, fun hmethod =>
      ⟨fun hbroken => ?_, fun hwhole hzero hne => ?_⟩⟩⟩
    · exact ⟨_, congrArg (runCommand s) (startEntry_of_over hlegal hover), raised_raiseError ..⟩
    · exact ⟨_, congrArg (runCommand s) (startEntry_of_unsupported hlegal hcs hus hmethod), raised_raiseError ..⟩
    · exact ⟨_, congrArg (runCommand s) (startEntry_of_broken hlegal hcs hus hmethod hbroken), raised_raiseError ..⟩
    · have hsolid : ¬ (startSolid s.arg0 = true ∧ s.taint = true) := by
        rcases hwhole with h | h
        · exact fun hb => absurd (hb.1.symm.trans h) nofun
        · exact fun hb => absurd (hb.2.symm.trans h) nofun
      exact ⟨_, congrArg (runCommand s) (startEntry_of_unequal hlegal hcs hus hmethod hsolid ⟨hzero, hne⟩),
        raised_raiseError ..⟩

/-- Settles O20: no check fails, and the entry begins. -/
theorem startEntryBeginsDecoding : Obligations.StartEntryBeginsDecoding := by
  rintro s m sol hstate hm rfl hcs hus hmethod hsolid hsize
  obtain rfl := hm.trans (startMethod_eq s.arg0).symm
  have hbody := startEntry_of_accepted ((startLegal_iff s.state).2 hstate) hcs hus hmethod hsolid hsize
  exact ⟨_, congrArg (runCommand s) hbody, rfl, rfl, rfl, rfl⟩

/-! ### APPEND_INPUT (44 R306, R307) -/

theorem appendLegal_iff (st : EState) : appendLegal st = true ↔ st = .run ∨ st = .waiting ∨ st = .done := by
  cases st <;> simp [appendLegal]

theorem deliver_eq (k : Word) (s : State) : deliver k.toNat s = { s with inRecv := s.inRecv + k } := by
  simp only [deliver, BitVec.ofNat_add, BitVec.ofNat_toNat, BitVec.setWidth_eq]

section
variable {k : Word} {s : State}

theorem appendInput_of_illegal (h : appendLegal s.state = false) : appendInput k s = illegalCommand 2 0x04 s := if_pos h

theorem appendInput_of_past (hlegal : appendLegal s.state = true) (h : s.csize.toNat < s.inRecv.toNat + k.toNat) :
    appendInput k s = illegalCommand 4 0x04 s := by
  rw [appendInput, if_neg (by simp [hlegal]), if_pos h]

theorem appendInput_of_waiting (hwait : s.state = .waiting) (h : s.inRecv.toNat + k.toNat ≤ s.csize.toNat) :
    appendInput k s = .ok (resume { s with inRecv := s.inRecv + k }) := by
  rw [appendInput, if_neg (by simp [hwait, appendLegal]), if_neg (by omega), if_pos hwait, deliver_eq]

theorem appendInput_of_not_waiting (hstate : s.state = .run ∨ s.state = .done)
    (h : s.inRecv.toNat + k.toNat ≤ s.csize.toNat) : appendInput k s = .ok { s with inRecv := s.inRecv + k } := by
  have hlegal : appendLegal s.state = true := (appendLegal_iff _).2 (by tauto)
  have hwait : s.state ≠ .waiting := by rcases hstate with h | h <;> rw [h] <;> nofun
  rw [appendInput, if_neg (by simp [hlegal]), if_neg (by omega), if_neg hwait, deliver_eq]

end

/-- Settles O22: the bytes are delivered, and in WAITING the entry is resumed. -/
theorem appendInputDeliversOrResumes : Obligations.AppendInputDeliversOrResumes := by
  refine fun s hfits => ⟨fun hstate => ?_, fun hwait => ?_⟩
  · exact congrArg (runCommand s) (appendInput_of_not_waiting hstate hfits)
  · exact ⟨_, congrArg (runCommand s) (appendInput_of_waiting hwait hfits), rfl, rfl, rfl, rfl⟩

/-- Settles O23: the two checks of the command. -/
theorem appendInputOutOfPlaceRaises : Obligations.AppendInputOutOfPlaceRaises := by
  refine fun s => ⟨fun hstate => ?_, fun hstate hpast => ?_⟩
  · have hbody := appendInput_of_illegal (k := s.arg0) (s := s) (by rcases hstate with h | h | h <;> rw [h] <;> rfl)
    exact ⟨_, congrArg (runCommand s) hbody, raised_raiseError ..⟩
  · have hbody := appendInput_of_past ((appendLegal_iff s.state).2 hstate) hpast
    exact ⟨_, congrArg (runCommand s) hbody, raised_raiseError ..⟩

/-! ## Host accesses to OUT (44 R309; 20 R62; 70 R392, R393) -/

/-- Settles O46, by what a read and a write of OUT do. -/
theorem hostReadsAndWritesOfOut : Obligations.HostReadsAndWritesOfOut := by
  refine ⟨fun s a rest h => ?_, fun s a b rest h => ?_⟩ <;> rw [step_of_sched h]
  · rcases readOut_cases a { s with sched := rest } with ⟨hout, e⟩ | ⟨hin, hdone, hlt, e⟩ | ⟨hin, hfree, e⟩ <;>
      rw [turnWork, e]
    · exact ⟨fun h => absurd hout (Nat.not_le.2 h), fun h => absurd hout (Nat.not_le.2 h),
        fun _ => ⟨_, rfl, refuseAccess_marks _ _, rfl⟩⟩
    · refine ⟨fun _ _ _ => rfl, fun _ h => ?_, fun h => absurd h (Nat.not_le.2 hin)⟩
      exact h.elim (absurd hdone) fun hle => absurd hlt (Nat.not_lt.2 hle)
    · exact ⟨fun _ hdone hlt => absurd ⟨hdone, hlt⟩ hfree, fun _ _ => ⟨_, _, rfl, rfl, rfl⟩,
        fun h => absurd h (Nat.not_le.2 hin)⟩
  · obtain ⟨why, e⟩ := writeOut_eq a b { s with sched := rest }
    rw [turnWork, e]
    exact ⟨_, rfl, refuseAccess_marks why _, rfl⟩

end Sys2Proof.Machine

/-! # Proofs about exceptions (60_exceptions.md)

What a turn makes of STATE, TAINT and EVLOG, rule by rule as the engine's rules call each other, then instruction by
instruction and turn by turn; the statements on raises and on TAINT read it off. Last the raises of an element's
symbols. -/

namespace Sys2Proof.Machine

/-! ## Going on without a raise (10 R27, R37, R39) -/

/-- STATE, TAINT and EVLOG, where a raise shows. -/
def errorView (s : State) : EState × Bool × List Event := (s.state, s.taint, s.evlog)

theorem errorView_eq_iff {s t : State} :
    errorView t = errorView s ↔ t.state = s.state ∧ t.taint = s.taint ∧ t.evlog = s.evlog := by
  simp [errorView]

/-- From `s` to `t` nothing is raised: TAINT stays, STATE stays or becomes RUN or DONE, and EVLOG gains at most the
record of a finished entry. -/
structure GoesOn (s t : State) : Prop where
  taint : t.taint = s.taint
  state : t.state = s.state ∨ t.state = .run ∨ t.state = .done
  log : t.evlog = s.evlog ∨ ∃ n us, t.evlog = s.evlog ++ [.extract n us]

theorem GoesOn.same {s t : State} (h : errorView t = errorView s) : GoesOn s t := by
  obtain ⟨hstate, htaint, hlog⟩ := errorView_eq_iff.1 h
  exact ⟨htaint, .inl hstate, .inl hlog⟩

/-- An entry begins or is resumed (44 R304, R307). -/
theorem GoesOn.runs {s t : State} (h : errorView t = (.run, s.taint, s.evlog)) : GoesOn s t := by
  obtain ⟨hstate, htaint, hlog⟩ : t.state = .run ∧ t.taint = s.taint ∧ t.evlog = s.evlog := by
    simpa [errorView] using h
  exact ⟨htaint, .inr (.inl hstate), .inl hlog⟩

/-- Going on from a state that shows the same. -/
theorem GoesOn.of_same {s s' t : State} (h : GoesOn s' t) (hs : errorView s' = errorView s) : GoesOn s t := by
  obtain ⟨hstate, htaint, hlog⟩ := errorView_eq_iff.1 hs
  exact ⟨htaint ▸ h.taint, hstate ▸ h.state, hlog ▸ h.log⟩

/-- The end of an engine step writes the cursor and the counters (43 R241, 44 R312). -/
theorem GoesOn.endOfElement {s u : State} (h : GoesOn s u) : GoesOn s (counterUpdate (commitCursor u)) :=
  ⟨h.taint, h.state, h.log⟩

/-- A rule that does not raise goes on. -/
def RuleGoesOn (s : State) (x : Except Raise State) : Prop := ∀ u, x = .ok u → GoesOn s u

namespace RuleGoesOn

theorem ok {s u : State} (h : GoesOn s u) : RuleGoesOn s (.ok u) := fun _ hu => by cases hu; exact h

theorem error (s : State) (r : Raise) : RuleGoesOn s (.error r) := fun _ hu => by cases hu

theorem ite {s : State} {c : Prop} [Decidable c] {x y : Except Raise State} (hx : RuleGoesOn s x)
    (hy : RuleGoesOn s y) : RuleGoesOn s (if c then x else y) := by
  split
  · exact hx
  · exact hy

theorem of_same {s s' : State} {x : Except Raise State} (h : RuleGoesOn s' x) (hs : errorView s' = errorView s) :
    RuleGoesOn s x := fun u hu => (h u hu).of_same hs

/-- The record of a finished entry is no error record (43 R257). -/
theorem finish (s : State) : RuleGoesOn s (finish s) :=
  .ite (error _ _) (.ok ⟨rfl, .inr (.inr rfl), .inr ⟨_, _, rfl⟩⟩)

theorem endOfBlock (s : State) : RuleGoesOn s (endOfBlock s) := .ite (finish s) (.ok (.same rfl))

theorem illegalCommand (reason op : Nat) (s : State) : RuleGoesOn s (illegalCommand reason op s) := error _ _

theorem invalidLitlen (sym : Nat) (s : State) : RuleGoesOn s (invalidLitlen sym s) := error _ _

theorem latchBlock (f : Bool) (b : BitVec 2) (d : DState) (s : State) : RuleGoesOn s (.ok (latchBlock f b d s)) :=
  .ok (.same rfl)

theorem loadFixed (s : State) : RuleGoesOn s (.ok (loadFixed s)) := .ok (.same rfl)

theorem storedHeader (len nlen : BitVec 16) (s : State) : RuleGoesOn s (storedHeader len nlen s) :=
  .ite (error _ _) (.ite ((endOfBlock { s with storedRem := len }).of_same rfl) (.ok (.same rfl)))

theorem outAppend (b : Byte) (s : State) : RuleGoesOn s (outAppend b s) := .ite (error _ _) (.ok (.same rfl))

theorem storedByte (b : Byte) (s : State) : RuleGoesOn s (storedByte b s) := by
  unfold Machine.storedByte
  rcases Nat.lt_or_ge s.outPtr.toNat s.usize.toNat with hroom | hfull
  · rw [outAppend_ok b s hroom]
    exact .ite ((endOfBlock (countStored (putByte b s))).of_same rfl) (.ok (.same rfl))
  · rw [outAppend_full b s hfull]
    exact error _ _

theorem finishIfFull (s : State) : RuleGoesOn s (finishIfFull s) := .ite (finish s) (.ok (.same rfl))

theorem rawByte (b : Byte) (s : State) : RuleGoesOn s (rawByte b s) := by
  unfold Machine.rawByte
  split
  next hroom =>
    rw [outAppend_ok b s hroom]
    exact (finishIfFull (putByte b s)).of_same rfl
  next => exact finishIfFull s

theorem dynamicCounts (l d c : Nat) (s : State) : RuleGoesOn s (dynamicCounts l d c s) :=
  .ite (error _ _) (.ite (error _ _) (.ok (.same rfl)))

theorem buildCl (ls : List (BitVec 3)) (s : State) : RuleGoesOn s (buildCl ls s) := by
  unfold Machine.buildCl
  cases huffBuild 0 (clLengths ls) Config.maxBitsCl s.pos.toNat with
  | error r => exact error _ _
  | ok cl => exact .ok (.same rfl)

theorem buildDynamic (s : State) : RuleGoesOn s (buildDynamic s) := by
  rcases buildDynamic_cases s with ⟨_, e⟩ | ⟨_, _, e⟩ | ⟨_, _, _, e⟩ | ⟨_, _, _, e⟩ <;> rw [e]
  · exact error _ _
  · exact error _ _
  · exact error _ _
  · exact .ok (.same rfl)

theorem applyRun (v : BitVec 4) (r : Nat) (s : State) : RuleGoesOn s (applyRun v r s) :=
  .ite (error _ _) (.ite ((buildDynamic (writeRun v r s)).of_same rfl) (.ok (.same rfl)))

theorem repeatPrevious (r : Nat) (s : State) : RuleGoesOn s (repeatPrevious r s) :=
  .ite (error _ _) (applyRun _ _ s)

theorem distanceField (d x : Nat) (s : State) : RuleGoesOn s (distanceField d x s) := by
  refine .ite (error _ _) (.ite (error _ _) (.ite (error _ _) (.ok ?_)))
  rw [copyLoop_frame]
  exact .same rfl

theorem matchField (sym e d x : Nat) (s : State) : RuleGoesOn s (matchField sym e d x s) :=
  (distanceField d x { s with mlen := BitVec.ofNat 9 (matchLength sym e) }).of_same rfl

theorem startEntry (a0 cs us : Word) (s : State) : RuleGoesOn s (startEntry a0 cs us s) :=
  .ite (error _ _) (.ite (error _ _) (.ite (error _ _) (.ite (error _ _) (.ite (error _ _) (.ok (.runs rfl))))))

theorem appendInput (k : Word) (s : State) : RuleGoesOn s (appendInput k s) :=
  .ite (error _ _) (.ite (error _ _) (.ite (.ok (.runs rfl)) (.ok (.same rfl))))

end RuleGoesOn

/-! ## What a turn does to STATE, TAINT and EVLOG -/

/-- `t` begins anew from `s`: no session or a fresh one, untainted, with the events of `s` or none
(44 R302, R303; 70 R380). -/
structure BeginsAnew (s t : State) : Prop where
  taint : t.taint = false
  state : t.state = .idle ∨ t.state = .closed
  log : t.evlog = s.evlog ∨ t.evlog = []

/-- Everything a turn does from `s`: it begins anew when it is asked to (`anew`), and otherwise takes a raise precisely
or goes on (60 R341, R345, R349). -/
inductive TurnEffect (anew : Prop) (s t : State) : Prop where
  | beginsAnew (hanew : anew) (h : BeginsAnew s t)
  | raises (hanew : ¬ anew) (c : ErrCode) (a x : Nat) (h : t = raiseError c a x s)
  | waits (hanew : ¬ anew) (req a : Nat) (h : t = enterWaiting req a s)
  | goesOn (hanew : ¬ anew) (h : GoesOn s t)

namespace TurnEffect

variable {anew : Prop} {s t : State}

/-- Taking a raise is an error or an underrun (60 R341, R345). -/
theorem takeRaise (hanew : ¬ anew) {r : Raise} (ht : takeRaise r s = .next t) : TurnEffect anew s t := by
  rcases takeRaise_next r s t ht with ⟨c, a, x, h⟩ | ⟨req, a, h, _⟩
  · exact .raises hanew c a x h
  · exact .waits hanew req a h

theorem runElement (hanew : ¬ anew) {x : Except Raise State} (h : RuleGoesOn s x) (ht : runElement s x = .next t) :
    TurnEffect anew s t := by
  rcases runElement_next s t x ht with ⟨u, hx, rfl⟩ | ⟨r, _, hr⟩
  · exact .goesOn hanew (h u hx).endOfElement
  · exact takeRaise hanew hr

theorem runCommand (hanew : ¬ anew) {x : Except Raise State} (h : RuleGoesOn s x) (ht : runCommand s x = .next t) :
    TurnEffect anew s t := by
  rcases runCommand_next s t x ht with hx | ⟨r, _, hr⟩
  · exact .goesOn hanew (h t hx)
  · exact takeRaise hanew hr

theorem exec_element {i : Instr} (hi : i.isCommand = false) (hanew : ¬ anew) (ht : exec i s = .next t) :
    TurnEffect anew s t := by
  cases hm : i.matchFields with
  | some f =>
    rw [exec_match (sym := f.1) (e := f.2.1) (d := f.2.2.1) (x := f.2.2.2) hm s] at ht
    exact runElement hanew (.matchField _ _ _ _ s) ht
  | none =>
    cases hd : i.distanceFields with
    | some f =>
      rw [exec_distance (d := f.1) (x := f.2) hd s] at ht
      exact runElement hanew (.distanceField _ _ s) ht
    | none =>
      cases i with
      | blockStored f => exact runElement hanew (.latchBlock _ _ _ s) ht
      | blockFixed f => exact runElement hanew (.of_same (.loadFixed (latchBlock f 1 .huffData s)) rfl) ht
      | blockDynamic f => exact runElement hanew (.latchBlock _ _ _ s) ht
      | blockReserved f => exact runElement hanew (.error s (.error .invalidBlockType s.pos.toNat 3)) ht
      | storedHdr len nlen => exact runElement hanew (.storedHeader _ _ s) ht
      | storedByte b => exact runElement hanew (.storedByte b s) ht
      | dynCounts l d c => exact runElement hanew (.dynamicCounts _ _ _ s) ht
      | dynCllen ls => exact runElement hanew (.buildCl ls s) ht
      | clLen n => exact runElement hanew (.applyRun _ _ s) ht
      | clRepeatPrev r => exact runElement hanew (.repeatPrevious _ s) ht
      | clRepeatZeroShort r => exact runElement hanew (.applyRun _ _ s) ht
      | clRepeatZeroLong r => exact runElement hanew (.applyRun _ _ s) ht
      | lit b => exact runElement hanew (.outAppend b s) ht
      | eob => exact runElement hanew (.endOfBlock s) ht
      | litlenInvalid286 => exact runElement hanew (.invalidLitlen _ s) ht
      | litlenInvalid287 => exact runElement hanew (.invalidLitlen _ s) ht
      | rawByte b => exact runElement hanew (.rawByte b s) ht
      | _ => simp [Instr.matchFields, Instr.distanceFields, Instr.isCommand] at hm hd hi

/-- OPEN and CLOSE begin anew; every other instruction raises or goes on. -/
theorem exec {i : Instr} (ht : exec i s = .next t) :
    TurnEffect (i = .openSession ∨ i = .closeSession) s t := by
  cases hi : i.isCommand with
  | false => exact exec_element hi (by rintro (rfl | rfl) <;> cases hi) ht
  | true =>
    cases i
    case openSession => cases ht; exact .beginsAnew (.inl rfl) ⟨rfl, .inl rfl, .inl rfl⟩
    case closeSession => cases ht; exact .beginsAnew (.inr rfl) ⟨rfl, .inr rfl, .inl rfl⟩
    case nop => exact runCommand (by simp) (.ok (.same rfl)) ht
    case startEntry => exact runCommand (by simp) (.startEntry _ _ _ s) ht
    case appendInput => exact runCommand (by simp) (.appendInput _ s) ht
    case illegalOpcode op => exact runCommand (by simp) (.illegalCommand _ _ s) ht
    all_goals contradiction

end TurnEffect

/-! ## Turns (44 R300, R309-R311; 70 R380) -/

/-- A turn that issues no command and is no hardware reset does not start anew. -/
theorem not_startsAnew {τ : Turn} (hτ : τ ≠ .hardReset) (hissues : τ.issues = none) : ¬ τ.startsAnew := by
  rintro (h | ⟨w, hw, _⟩)
  · exact hτ h
  · cases hissues.symm.trans hw

/-- A turn that issues a command starts anew when the command is OPEN or CLOSE (44 R302, R303). -/
theorem startsAnew_iff_of_issues {τ : Turn} {w : Word} (hissues : τ.issues = some w) :
    τ.startsAnew ↔ decodeCommand w = .openSession ∨ decodeCommand w = .closeSession := by
  refine ⟨?_, fun h => .inr ⟨w, hissues, h⟩⟩
  rintro (rfl | ⟨v, hv, h⟩)
  · cases hissues
  · cases hissues.symm.trans hv
    exact h

namespace TurnEffect

variable {s t : State}

/-- The engine runs an element, which is no command, takes the raise of its fetch, or is idle (43 R241). -/
theorem engineWork (ht : (engineWork s).outcome = .next t) : TurnEffect Turn.engine.startsAnew s t := by
  have hanew : ¬ Turn.engine.startsAnew := not_startsAnew nofun rfl
  by_cases hrun : s.state = .run
  · rcases engineWork_run s hrun with ⟨i, q, hfetch, e⟩ | ⟨r, _, e⟩ <;> rw [e] at ht
    · cases exec_element (decodeElement_isCommand hfetch) hanew ht with
      | beginsAnew h _ => exact absurd h hanew
      | raises _ c a x h => exact .raises hanew c a x h
      | waits _ req a h => exact .waits hanew req a h
      | goesOn _ h => exact .goesOn hanew (h.of_same rfl)
    · exact takeRaise hanew ht
  · rw [engineWork_idle s hrun] at ht
    cases ht
    exact .goesOn hanew (.same rfl)

/-- A register write is refused, issues a command, or stores an argument at most (44 R311). -/
theorem registerWriteWork {offset size : Nat} {w : Word} (ht : (registerWriteWork offset size w s).outcome = .next t) :
    TurnEffect (Turn.regWrite offset size w).startsAnew s t := by
  rcases registerWriteWork_cases offset size w s with ⟨why, hforbidden, e⟩ | ⟨hword, hcmd, e⟩ | ⟨_, hcmd, e⟩ <;>
    rw [e] at ht
  · cases ht
    exact .goesOn (not_startsAnew nofun (by simp [Turn.issues, hforbidden])) (.same rfl)
  · have hissues : (Turn.regWrite offset size w).issues = some w := if_pos ⟨hword, hcmd⟩
    rw [startsAnew_iff_of_issues hissues]
    exact exec ht
  · cases ht
    refine .goesOn (not_startsAnew nofun (by simp [Turn.issues, hcmd])) ?_
    rcases writeRegister_cases (offset / 4) w s with e | e | e | e <;> rw [e] <;> exact .same rfl

theorem turnWork {τ : Turn} (ht : (turnWork τ s).outcome = .next t) : TurnEffect τ.startsAnew s t := by
  cases τ with
  | engine => exact engineWork ht
  | hardReset =>
    cases ht
    exact .beginsAnew (.inl rfl) ⟨rfl, .inr rfl, .inr rfl⟩
  | regWrite offset size w => exact registerWriteWork ht
  | regRead offset size =>
    cases ht
    refine .goesOn (not_startsAnew nofun rfl) ?_
    rcases readRegister_cases offset size s with ⟨why, e⟩ | ⟨v, e⟩ <;> rw [e] <;> exact .same rfl
  | inWrite a b =>
    cases ht
    refine .goesOn (not_startsAnew nofun rfl) ?_
    rcases writeIn_cases a b s with ⟨why, e⟩ | ⟨_, _, _, _, e⟩ <;> rw [e] <;> exact .same rfl
  | outRead a =>
    cases ht
    refine .goesOn (not_startsAnew nofun rfl) ?_
    rcases readOut_cases a s with ⟨_, e⟩ | ⟨_, _, _, e⟩ | ⟨_, _, e⟩ <;> rw [e] <;> exact .same rfl
  | outWrite a b =>
    cases ht
    refine .goesOn (not_startsAnew nofun rfl) ?_
    obtain ⟨why, e⟩ := writeOut_eq a b s
    rw [e]
    exact .same rfl

/-- A step is its turn, taken off the schedule. -/
theorem step (ht : step s = .next t) :
    TurnEffect (nextTurn s).startsAnew { s with sched := s.sched.tail } t :=
  turnWork (by rw [← step_eq_turnWork, ht])

/-! ## Records and states (60 R341, R345, R349) -/

variable {anew : Prop}

/-- A record that is no finished entry's is an error's or an underrun's. -/
theorem record_cases (h : TurnEffect anew s t) {e : Event} (hlog : t.evlog = s.evlog ++ [e]) :
    (∃ n us, e = .extract n us) ∨
    (∃ c a x, t = raiseError c a x s ∧ e = .error c.code (BitVec.ofNat 32 a) (BitVec.ofNat 32 x)) ∨
    (∃ req a, t = enterWaiting req a s ∧ e = .waiting (BitVec.ofNat 32 a) (BitVec.ofNat 32 req)) := by
  cases h with
  | beginsAnew _ h =>
    rcases h.log with h | h <;> simp [h] at hlog
  | raises _ c a x h =>
    subst h
    exact .inr (.inl ⟨c, a, x, rfl, by simpa using hlog.symm⟩)
  | waits _ req a h =>
    subst h
    exact .inr (.inr ⟨req, a, rfl, by simpa using hlog.symm⟩)
  | goesOn _ h =>
    rcases h.log with h | ⟨n, us, h⟩
    · simp [h] at hlog
    · exact .inl ⟨n, us, by simpa [h] using hlog.symm⟩

/-- An error record comes with the writes of R341 and no other (60 R349). -/
theorem raised_of_record (h : TurnEffect anew s t) {c : Byte} {a x : Word}
    (hlog : t.evlog = s.evlog ++ [.error c a x]) : Raised s t c a.toNat x.toNat := by
  rcases h.record_cases hlog with ⟨_, _, he⟩ | ⟨c', a', x', rfl, he⟩ | ⟨_, _, _, he⟩ <;> cases he
  simp only [Raised, BitVec.ofNat_toNat, BitVec.setWidth_eq]
  rfl

/-- A waiting record comes with the writes of R345 and no other (60 R349). -/
theorem enterWaiting_of_record (h : TurnEffect anew s t) {a req : Word}
    (hlog : t.evlog = s.evlog ++ [.waiting a req]) : t = enterWaiting req.toNat a.toNat s := by
  rcases h.record_cases hlog with ⟨_, _, he⟩ | ⟨_, _, _, _, he⟩ | ⟨req', a', rfl, he⟩ <;> cases he
  simp only [enterWaiting, BitVec.ofNat_toNat, BitVec.setWidth_eq]

/-- ERROR is entered by an error only (10 R27, 60 R341). -/
theorem record_of_error (h : TurnEffect anew s t) (ht : t.state = .error) :
    s.state = .error ∨ ∃ c a x, t.evlog = s.evlog ++ [.error c a x] := by
  cases h with
  | beginsAnew _ h => rcases h.state with h | h <;> cases h.symm.trans ht
  | raises _ c a x h => exact .inr ⟨_, _, _, by rw [h, raiseError_evlog]⟩
  | waits _ req a h => subst h; cases ht
  | goesOn _ h =>
    rcases h.state with h | h | h
    · exact .inl (h.symm.trans ht)
    · cases h.symm.trans ht
    · cases h.symm.trans ht

/-- WAITING is entered by an underrun only (10 R27, 60 R345). -/
theorem record_of_waiting (h : TurnEffect anew s t) (ht : t.state = .waiting) :
    s.state = .waiting ∨ ∃ a req, t.evlog = s.evlog ++ [.waiting a req] := by
  cases h with
  | beginsAnew _ h => rcases h.state with h | h <;> cases h.symm.trans ht
  | raises _ c a x h => subst h; cases ht
  | waits _ req a h => exact .inr ⟨_, _, by rw [h, enterWaiting_evlog]⟩
  | goesOn _ h =>
    rcases h.state with h | h | h
    · exact .inl (h.symm.trans ht)
    · cases h.symm.trans ht
    · cases h.symm.trans ht

/-- Only a turn that begins anew clears TAINT, and only an error sets it (60 R343). -/
theorem taint_cases (h : TurnEffect anew s t) :
    (anew ∧ t.taint = false) ∨ (¬ anew ∧ t.taint = true ∧ t.state = .error) ∨ (¬ anew ∧ t.taint = s.taint) := by
  cases h with
  | beginsAnew hanew h => exact .inl ⟨hanew, h.taint⟩
  | raises hanew c a x h => exact .inr (.inl ⟨hanew, by rw [h, raiseError_taint], by rw [h, raiseError_state]⟩)
  | waits hanew req a h => exact .inr (.inr ⟨hanew, by rw [h, enterWaiting_taint]⟩)
  | goesOn hanew h => exact .inr (.inr ⟨hanew, h.taint⟩)

end TurnEffect

/-- Settles O17, by the effect of an instruction and of a turn. -/
theorem everyErrorIsPrecise : Obligations.EveryErrorIsPrecise := by
  refine ⟨fun i s t c a x hexec hlog => (TurnEffect.exec hexec).raised_of_record hlog,
    fun s t c a x hstep hlog => (TurnEffect.step hstep).raised_of_record hlog,
    fun s t a req hstep hlog => ?_,
    fun s t hstep => ⟨(TurnEffect.step hstep).record_of_error, (TurnEffect.step hstep).record_of_waiting⟩⟩
  rw [(TurnEffect.step hstep).enterWaiting_of_record hlog]
  simp only [enterWaiting, BitVec.ofNat_toNat, BitVec.setWidth_eq]
  rfl

/-- Settles O54, by what a turn does to TAINT. -/
theorem taintIsClearedOnlyAnew : Obligations.TaintIsClearedOnlyAnew := by
  intro s t hstep
  rcases (TurnEffect.step hstep).taint_cases with ⟨hanew, ht⟩ | ⟨hanew, ht, herror⟩ | ⟨hanew, ht⟩
  · exact ⟨fun _ h => absurd hanew h, fun _ => ht, fun h => absurd (ht.symm.trans h) Bool.false_ne_true⟩
  · exact ⟨fun _ _ => ht, fun h => absurd h hanew, fun _ => .inr herror⟩
  · exact ⟨fun hs _ => ht.trans hs, fun h => absurd h hanew, fun h => .inl (ht.symm.trans h)⟩

end Sys2Proof.Machine

namespace Sys2Proof

open Machine

/-! ## Symbols that cannot be decoded (41 R176, R177; 43 R249, R251, R253) -/

section
variable {r : Raise} {st : Stream} {p : Nat}

theorem decodeClSymbol_of_error {t : HuffTable} (lidx : Nat) (h : huffDecode t st p = .error r) :
    decodeClSymbol t lidx st p = .error r := by
  rw [decodeClSymbol, h]
  rfl

theorem decodeData_of_error {tLit : HuffTable} (tDist : HuffTable) (h : huffDecode tLit st p = .error r) :
    decodeData tLit tDist st p = .error r := by
  rw [decodeData, h]
  rfl

theorem readDistance_of_error {t : HuffTable} (start : Nat) (h : huffDecode t st p = .error r) :
    readDistance t start st p = .error r := by
  rw [readDistance, h]
  rfl

/-- The distance symbol of a match is read after the length symbol and its extra bits (43 R253). -/
theorem decodeData_of_distance_error {tLit tDist : HuffTable} {sym q : Nat} (hsym : huffDecode tLit st p = .ok (sym, q))
    (hmin : 257 ≤ sym) (hmax : sym ≤ 285) (hfits : q + lengthExtra sym ≤ st.avail)
    (h : huffDecode tDist st (q + lengthExtra sym) = .error r) : decodeData tLit tDist st p = .error r := by
  have hwidth : lengthExtra sym ≤ 16 := (NotRefused.lengthExtra_le sym).trans (by decide)
  have hmatch : decodeMatch tDist sym p st q = .error r := by
    simp only [decodeMatch, readBits_of_le st _ q hwidth hfits, except_ok_bind, readDistance_of_error p h]
    rfl
  simp only [decodeData, hsym, except_ok_bind]
  rw [if_neg (by omega), if_neg (by omega), if_pos hmax, hmatch]

end

section
variable {s : State}

/-- A code-length symbol is read at the cursor (43 R249). -/
theorem fetchElement_of_dynLens (hd : s.dstate = .dynLens) (hm : s.mlen = 0) :
    fetchElement s = decodeClSymbol s.tCl s.lidx.toNat (streamOf s) s.pos.toNat := by
  simp [fetchElement, readPosition, decodeElement, decodeCtx, hd, hm]

/-- A data element is read at the cursor (43 R251). -/
theorem fetchElement_of_huffData (hd : s.dstate = .huffData) (hm : s.mlen = 0) :
    fetchElement s = decodeData s.tLit s.tDist (streamOf s) s.pos.toNat := by
  simp [fetchElement, readPosition, decodeElement, decodeCtx, hd, hm]

end

/-- Settles O15: the first symbol of an element, the distance symbol after a length, and the engine's step on a
raise. -/
theorem decodingErrorIsTaken : Obligations.DecodingErrorIsTaken := by
  refine ⟨fun s r => ⟨fun hd hm h => ?_, fun hd hm h => ?_, fun sym q hd hm hsym hmin hmax hfits h => ?_⟩,
    fun s c a x hrun hturn hfetch =>
      ⟨_, step_of_fetchElement_error hrun hturn hfetch, raised_raiseError c a x { s with sched := s.sched.tail }⟩⟩
  · rw [fetchElement_of_dynLens hd hm]
    exact decodeClSymbol_of_error _ h
  · rw [fetchElement_of_huffData hd hm]
    exact decodeData_of_error _ h
  · rw [fetchElement_of_huffData hd hm]
    exact decodeData_of_distance_error hsym hmin hmax hfits h

end Sys2Proof

/-! # Proofs about reset and hazards (70_reset_and_hazards.md)

First what an element leaves alone and how far it moves the cursor, which bounds an attempt at an entry; then the host's
writes to IN, and the values of reset. -/

namespace Sys2Proof

open Machine

/-! ## Reading an element moves the cursor (70 R395) -/

/-- Every element reads at least one bit, but for the raw byte element that finds all of the output there
(43 R260; log 20). -/
theorem decodeElement_lt {c : DecodeCtx} {start p q : Nat} {st : Stream} {i : Instr} (ho : st.order = .lsb)
    (hmatch : c.inMatch = false) (hcllen : c.dstate = .dynCllen → 0 < c.hclen)
    (h : decodeElement c start st p = .ok (i, q)) : p < q ∨ (c.outFull = true ∧ i = .rawByte 0) := by
  obtain ⟨halign, _, _⟩ := alignByte_spec p
  unfold decodeElement at h
  cases hd : c.dstate <;> simp only [hd] at h
  case none => cases h
  case raw =>
    rcases decodeRawByte_ok ho h with ⟨hfull, _, hi⟩ | ⟨_, hq, _⟩
    · exact .inr ⟨hfull, hi⟩
    · exact .inl (by omega)
  case blkHdr =>
    obtain ⟨hq, _⟩ := decodeBlockHeader_ok h
    exact .inl (by omega)
  case storedHdr =>
    obtain ⟨hq, _⟩ := decodeStoredHdr_ok h
    exact .inl (by omega)
  case storedData =>
    obtain ⟨hq, _⟩ := decodeStoredByte_ok ho h
    exact .inl (by omega)
  case dynCounts =>
    obtain ⟨hq, _⟩ := decodeDynCounts_ok h
    exact .inl (by omega)
  case dynCllen =>
    obtain ⟨hq, _⟩ := decodeDynCllen_ok h
    have hpos := hcllen hd
    exact .inl (by omega)
  case dynLens =>
    obtain ⟨hlt, _⟩ := decodeClSymbol_ok h
    exact .inl hlt
  case huffData =>
    rw [hmatch] at h
    obtain ⟨hlt, _⟩ := decodeData_ok h
    exact .inl hlt

end Sys2Proof

namespace Sys2Proof.Machine

/-! ## The entry's slice and the position after an element (10 R26; log 10) -/

/-- CSIZE and the position after the element that was read, which no element's rule writes. -/
def sliceView (s : State) : Word × Word := (s.csize, s.npos)

/-- What a rule answers from `s`, if it does not raise, has the CSIZE and the position of `s`. -/
def RuleKeepsSlice (s : State) (x : Except Raise State) : Prop := ∀ u, x = .ok u → sliceView u = sliceView s

namespace RuleKeepsSlice

theorem ok {s u : State} (h : sliceView u = sliceView s) : RuleKeepsSlice s (.ok u) := fun _ hu => by cases hu; exact h

theorem error (s : State) (r : Raise) : RuleKeepsSlice s (.error r) := fun _ hu => by cases hu

theorem ite {s : State} {c : Prop} [Decidable c] {x y : Except Raise State} (hx : RuleKeepsSlice s x)
    (hy : RuleKeepsSlice s y) : RuleKeepsSlice s (if c then x else y) := by
  split
  · exact hx
  · exact hy

theorem latchBlock (f : Bool) (b : BitVec 2) (d : DState) (s : State) : RuleKeepsSlice s (.ok (latchBlock f b d s)) :=
  .ok rfl

theorem loadFixed (s : State) : RuleKeepsSlice s (.ok (loadFixed s)) := .ok rfl

theorem invalidLitlen (sym : Nat) (s : State) : RuleKeepsSlice s (invalidLitlen sym s) := error _ _

theorem finish (s : State) : RuleKeepsSlice s (finish s) := .ite (error _ _) (.ok rfl)

theorem endOfBlock (s : State) : RuleKeepsSlice s (endOfBlock s) := .ite (finish s) (.ok rfl)

theorem storedHeader (len nlen : BitVec 16) (s : State) : RuleKeepsSlice s (storedHeader len nlen s) :=
  .ite (error _ _) (.ite (endOfBlock { s with storedRem := len }) (.ok rfl))

theorem outAppend (b : Byte) (s : State) : RuleKeepsSlice s (outAppend b s) := .ite (error _ _) (.ok rfl)

theorem storedByte (b : Byte) (s : State) : RuleKeepsSlice s (storedByte b s) := by
  unfold Machine.storedByte
  rcases Nat.lt_or_ge s.outPtr.toNat s.usize.toNat with hroom | hfull
  · rw [outAppend_ok b s hroom]
    exact .ite (endOfBlock (countStored (putByte b s))) (.ok rfl)
  · rw [outAppend_full b s hfull]
    exact error _ _

theorem finishIfFull (s : State) : RuleKeepsSlice s (finishIfFull s) := .ite (finish s) (.ok rfl)

theorem rawByte (b : Byte) (s : State) : RuleKeepsSlice s (rawByte b s) := by
  rcases Nat.lt_or_ge s.outPtr.toNat s.usize.toNat with hroom | hfull
  · rw [rawByte_of_room b hroom]
    exact finishIfFull (putByte b s)
  · rw [Machine.rawByte, if_neg (Nat.not_lt.2 hfull)]
    exact finishIfFull s

theorem dynamicCounts (l d c : Nat) (s : State) : RuleKeepsSlice s (dynamicCounts l d c s) :=
  .ite (error _ _) (.ite (error _ _) (.ok rfl))

theorem buildCl (ls : List (BitVec 3)) (s : State) : RuleKeepsSlice s (buildCl ls s) := by
  cases hover : overSubscribed (clLengths ls) 7 with
  | true =>
    rw [buildCl_of_overSubscribed hover]
    exact error _ _
  | false =>
    rw [buildCl_of_legal hover]
    exact .ok rfl

theorem buildDynamic (s : State) : RuleKeepsSlice s (buildDynamic s) := by
  rcases buildDynamic_cases s with ⟨_, e⟩ | ⟨_, _, e⟩ | ⟨_, _, _, e⟩ | ⟨_, _, _, e⟩ <;> rw [e]
  · exact error _ _
  · exact error _ _
  · exact error _ _
  · exact .ok rfl

theorem applyRun (v : BitVec 4) (r : Nat) (s : State) : RuleKeepsSlice s (applyRun v r s) :=
  .ite (error _ _) (.ite (buildDynamic (writeRun v r s)) (.ok rfl))

theorem repeatPrevious (r : Nat) (s : State) : RuleKeepsSlice s (repeatPrevious r s) :=
  .ite (error _ _) (applyRun _ _ s)

theorem distanceField (d x : Nat) (s : State) : RuleKeepsSlice s (distanceField d x s) := by
  refine .ite (error _ _) (.ite (error _ _) (.ite (error _ _) (.ok ?_)))
  rw [copyLoop_frame]
  rfl

theorem matchField (sym e d x : Nat) (s : State) : RuleKeepsSlice s (matchField sym e d x s) :=
  distanceField d x { s with mlen := BitVec.ofNat 9 (matchLength sym e) }

end RuleKeepsSlice

/-- A raise keeps CSIZE and leaves RUN (60 R341, R345). -/
theorem csize_and_state_of_takeRaise {r : Raise} {s t : State} (ht : takeRaise r s = .next t) :
    t.csize = s.csize ∧ t.state ≠ .run := by
  rcases takeRaise_next r s t ht with ⟨c, a, x, rfl⟩ | ⟨n, a, rfl, _⟩
  · exact ⟨rfl, nofun⟩
  · exact ⟨rfl, nofun⟩

/-- From `s` to `t` CSIZE is the same, and a machine still in RUN has its cursor at `q`. -/
structure MovesTo (q : Word) (s t : State) : Prop where
  csize : t.csize = s.csize
  pos : t.state = .run → t.pos = q

namespace MovesTo

variable {s t : State}

/-- The end of a step commits the position after the element (40 R145; log 10). -/
theorem runElement {x : Except Raise State} (h : RuleKeepsSlice s x) (ht : runElement s x = .next t) :
    MovesTo s.npos s t := by
  rcases runElement_next s t x ht with ⟨u, hx, rfl⟩ | ⟨r, _, hr⟩
  · obtain ⟨hcsize, hnpos⟩ := Prod.mk.inj (h u hx)
    exact ⟨hcsize, fun _ => hnpos⟩
  · obtain ⟨hcsize, hleaves⟩ := csize_and_state_of_takeRaise hr
    exact ⟨hcsize, fun hrun => absurd hrun hleaves⟩

theorem exec_element {i : Instr} (hi : i.isCommand = false) (ht : exec i s = .next t) : MovesTo s.npos s t := by
  cases hm : i.matchFields with
  | some f =>
    rw [exec_match (sym := f.1) (e := f.2.1) (d := f.2.2.1) (x := f.2.2.2) hm s] at ht
    exact runElement (.matchField _ _ _ _ s) ht
  | none =>
    cases hd : i.distanceFields with
    | some f =>
      rw [exec_distance (d := f.1) (x := f.2) hd s] at ht
      exact runElement (.distanceField _ _ s) ht
    | none =>
      cases i with
      | blockStored f => exact runElement (.latchBlock _ _ _ s) ht
      | blockFixed f => exact runElement (.loadFixed (latchBlock f 1 .huffData s)) ht
      | blockDynamic f => exact runElement (.latchBlock _ _ _ s) ht
      | blockReserved f => exact runElement (.error s (.error .invalidBlockType s.pos.toNat 3)) ht
      | storedHdr len nlen => exact runElement (.storedHeader _ _ s) ht
      | storedByte b => exact runElement (.storedByte b s) ht
      | dynCounts l d c => exact runElement (.dynamicCounts _ _ _ s) ht
      | dynCllen ls => exact runElement (.buildCl ls s) ht
      | clLen n => exact runElement (.applyRun _ _ s) ht
      | clRepeatPrev r => exact runElement (.repeatPrevious _ s) ht
      | clRepeatZeroShort r => exact runElement (.applyRun _ _ s) ht
      | clRepeatZeroLong r => exact runElement (.applyRun _ _ s) ht
      | lit b => exact runElement (.outAppend b s) ht
      | eob => exact runElement (.endOfBlock s) ht
      | litlenInvalid286 => exact runElement (.invalidLitlen _ s) ht
      | litlenInvalid287 => exact runElement (.invalidLitlen _ s) ht
      | rawByte b => exact runElement (.rawByte b s) ht
      | _ => simp [Instr.matchFields, Instr.distanceFields, Instr.isCommand] at hm hd hi

end MovesTo

/-! ## An engine turn in RUN (43 R241; 70 R395) -/

/-- With all of the output there the raw byte element finishes the entry (43 R260). -/
theorem exec_rawByte_of_full {s t : State} {b : Byte} (hfull : s.outPtr = s.usize)
    (ht : exec (.rawByte b) s = .next t) : t.state = .done := by
  have hrule := ((rawByte_of_full b hfull).trans (finishIfFull_of_full hfull)).trans (finish_of_full hfull)
  have hexec : exec (.rawByte b) s = runElement s (rawByte b s) := rfl
  rw [hexec, hrule] at ht
  cases ht
  rfl

/-- An engine turn in RUN ends in RUN, DONE, ERROR or WAITING (10 R27). -/
theorem state_engineWork {s t : State} (hrun : s.state = .run) (ht : (engineWork s).outcome = .next t) :
    t.state = .run ∨ t.state = .done ∨ t.state = .error ∨ t.state = .waiting := by
  cases TurnEffect.engineWork ht with
  | beginsAnew h _ => exact absurd h (not_startsAnew nofun rfl)
  | raises _ c a x h => exact .inr (.inr (.inl (by rw [h, raiseError_state])))
  | waits _ req a h => exact .inr (.inr (.inr (by rw [h, enterWaiting_state])))
  | goesOn _ h =>
    rcases h.state with h | h | h
    · exact .inl (h.trans hrun)
    · exact .inl h
    · exact .inr (.inl h)

/-- An engine turn keeps CSIZE. -/
theorem csize_engineWork {s t : State} (ht : (engineWork s).outcome = .next t) : t.csize = s.csize := by
  by_cases hrun : s.state = .run
  · rcases engineWork_run s hrun with ⟨i, q, hfetch, e⟩ | ⟨r, _, e⟩ <;> rw [e] at ht
    · exact (MovesTo.exec_element (decodeElement_isCommand hfetch) ht).csize
    · exact (csize_and_state_of_takeRaise ht).1
  · rw [engineWork_idle s hrun] at ht
    cases ht
    rfl

section
variable {s t : State}

/-- An engine turn that starts and ends in RUN reads an element of at least one bit: the element that reads none
finishes the entry, as OUT_PTR is not above USIZE. -/
theorem Inv.pos_lt_of_engineWork (h : Inv s) (hrun : s.state = .run) (ht : (engineWork s).outcome = .next t)
    (hstays : t.state = .run) : s.pos.toNat < t.pos.toNat := by
  rcases engineWork_run s hrun with ⟨i, q, hfetch, e⟩ | ⟨r, _, e⟩ <;> rw [e] at ht
  · obtain ⟨_, hnext⟩ := h.reading hrun hfetch
    have hpos : t.pos.toNat = q := by
      rw [(MovesTo.exec_element (decodeElement_isCommand hfetch) ht).pos hstays, hnext]
    have hcllen (hd : s.dstate = .dynCllen) : 0 < s.hclen.toNat := by
      obtain ⟨_, hrange, _⟩ := h.counts
      obtain ⟨hmin, _⟩ := hrange hd
      omega
    rw [h.fetchElement_eq] at hfetch
    rcases decodeElement_lt (st := streamOf s) h.bitOrder h.not_inMatch hcllen hfetch with hlt | ⟨hfull, rfl⟩
    · exact hpos ▸ hlt
    · obtain ⟨_, _, hptr, _⟩ := h.sizes
      have hptr : s.outPtr = s.usize := BitVec.eq_of_toNat_eq (Nat.le_antisymm hptr (of_decide_eq_true hfull))
      cases hstays.symm.trans (exec_rawByte_of_full (s := { s with npos := BitVec.ofNat 32 q }) hptr ht)
  · obtain ⟨_, hleaves⟩ := csize_and_state_of_takeRaise ht
    exact absurd hstays hleaves

/-- A step with no host turn left is the engine's, and keeps the host at rest (log 1). -/
theorem Inv.engine_step (h : Inv s) (hsched : s.sched = []) :
    ∃ t, step s = .next t ∧ (engineWork s).outcome = .next t ∧ Inv t ∧ t.sched = [] := by
  have hstep : step s = (engineWork s).outcome := by
    rw [step_eq, nextWork, hsched]
    rfl
  obtain ⟨t, ht, hinv⟩ := h.inv_engineWork
  have hrest : t.sched = s.sched := congrArg HostSide.sched (hostSide_engineWork ht)
  exact ⟨t, hstep.trans ht, ht, hinv, hrest.trans hsched⟩

end

/-- Settles O57: the engine's turn, taken off the schedule, reads an element (`Inv.pos_lt_of_engineWork`). -/
theorem everyRunningStepConsumesInput : Obligations.EveryRunningStepConsumesInput := by
  intro s t h hrun hturn hstep hstays
  rw [step_eq_turnWork, hturn] at hstep
  exact (h.setSched s.sched.tail).pos_lt_of_engineWork hrun hstep hstays

/-! ## One attempt at an entry (70 R395) -/

/-- A run whose first step answers goes on from there. -/
theorem run_succ {s t : State} (hstep : step s = .next t) (k : Nat) : core.run (k + 1) s = core.run k t := by
  simp only [Host.Core.run, core, hstep]

/-- The machine has stopped decoding: the entry is done, failed or waits for input (10 R27). -/
def Stopped (t : State) : Prop := t.state = .done ∨ t.state = .error ∨ t.state = .waiting

/-- With fewer than `n` bits of the slice after the cursor, RUN is left within `n` engine steps: each step that stays in
RUN takes one of those bits, and the cursor is never past the slice. -/
theorem Inv.exists_run_stopped (n : Nat) {s : State} (h : Inv s) (hrun : s.state = .run) (hsched : s.sched = [])
    (hleft : 8 * s.csize.toNat < s.pos.toNat + n) :
    ∃ (k : Nat) (t : State), k ≤ n ∧ core.run k s = .next t ∧ Stopped t := by
  induction n generalizing s with
  | zero =>
    have hcursor := h.cursor
    obtain ⟨hrecv, _⟩ := h.sizes
    omega
  | succ n ih =>
    obtain ⟨t, hstep, ht, hinv, hrest⟩ := h.engine_step hsched
    rcases state_engineWork hrun ht with hstays | hstopped
    · have hlt := h.pos_lt_of_engineWork hrun ht hstays
      obtain ⟨k, u, hk, hu, hstopped⟩ := ih hinv hstays hrest (by rw [csize_engineWork ht]; omega)
      exact ⟨k + 1, u, Nat.succ_le_succ hk, (run_succ hstep k).trans hu, hstopped⟩
    · exact ⟨1, t, Nat.le_add_left 1 n, run_succ hstep 0, hstopped⟩

/-- Settles O58: no more than the whole slice is left, 8 CSIZE bits. -/
theorem oneAttemptIsBounded : Obligations.OneAttemptIsBounded := fun _ h hrun hsched =>
  h.exists_run_stopped _ hrun hsched (Nat.lt_add_left _ (Nat.lt_succ_self _))

/-! ## Host writes to IN (70 R390; 20 R61; 44 R310) -/

/-- A host write to IN is admitted from IN_RECV to the end of the slice, while an entry is open (70 R390). -/
theorem inWriteForbidden_eq_none_iff (a : Nat) (s : State) : inWriteForbidden a s = none ↔
    a < s.cfg.inCap ∧ (s.state = .run ∨ s.state = .waiting ∨ s.state = .done) ∧ s.inRecv.toNat ≤ a ∧
      a < s.csize.toNat := by
  rw [← appendLegal_iff, inWriteForbidden]
  split
  next hcap => simp [hcap]
  next hcap =>
    split
    next hopen => simp [hopen, Nat.lt_of_not_le hcap]
    next hopen => simp [hopen]

theorem writeIn_of_admitted {a : Nat} {s : State} (h : inWriteForbidden a s = none) (b : Byte) :
    writeIn a b s = { s with inp := s.inp.write a b } := by
  rw [writeIn, h]

theorem writeIn_of_forbidden {a : Nat} {s : State} (h : inWriteForbidden a s ≠ none) (b : Byte) :
    ∃ why, writeIn a b s = refuseAccess why s := by
  obtain ⟨why, hwhy⟩ := Option.ne_none_iff_exists'.1 h
  exact ⟨why, by rw [writeIn, hwhy]⟩

/-- Settles O45, by when a write is admitted and what it does. -/
theorem hostWritesToIn : Obligations.HostWritesToIn := by
  intro s a b rest h
  rw [step_of_sched h, turnWork, Work.outcome_settled]
  have hadmitted := inWriteForbidden_eq_none_iff a { s with sched := rest }
  refine ⟨fun hcap hopen hmin hmax => ?_, fun hout => ?_⟩
  · rw [writeIn_of_admitted (hadmitted.2 ⟨hcap, hopen, hmin, hmax⟩)]
    refine ⟨_, rfl, ?_, fun c hc => ?_, rfl⟩ <;> rw [inByte_write]
    · exact if_pos rfl
    · exact if_neg hc
  · have hforbidden : inWriteForbidden a { s with sched := rest } ≠ none := by
      intro hnone
      obtain ⟨-, hopen, hmin, hmax⟩ := hadmitted.1 hnone
      have hopen : s.state = .run ∨ s.state = .waiting ∨ s.state = .done := hopen
      rcases hout with hlow | hhigh | hstate
      · exact absurd hmin (Nat.not_le.2 hlow)
      · exact absurd hmax (Nat.not_lt.2 hhigh)
      · rcases hopen with hs | hs | hs <;> simp [hs] at hstate
    obtain ⟨why, e⟩ := writeIn_of_forbidden hforbidden b
    rw [e]
    exact ⟨_, rfl, refuseAccess_marks why _, rfl⟩

/-! ## The values of reset (70 R380; 10 R41) -/

/-- The reset state with its own parameters, turns to come and records of host accesses and resets (log 17). -/
def resetWith (cfg : Config) (sched : List Turn) (hostData : Word) (mark : Option Forbidden) (freeReads epoch : Nat) :
    State :=
  { State.reset with
    cfg := cfg, sched := sched, hostData := hostData, refusalMark := mark, freeReads := freeReads, epoch := epoch }

/-- A cursor at 0 is at byte 0 and bit 0 (10 R24). -/
theorem byteIndex_and_bitIndex_of_pos_zero {s : State} (h : s.pos = 0) : s.byteIndex = 0 ∧ s.bitIndex = 0 := by
  rw [State.byteIndex, State.bitIndex, h]
  decide

/-- Settles O50: both are the reset state up to fields that no register shows. -/
theorem resetHoldsTheStatedValues : Obligations.ResetHoldsTheStatedValues := by
  intro t ht
  obtain ⟨cfg, sched, v, m, n, e, rfl⟩ : ∃ cfg sched v m n e, t = resetWith cfg sched v m n e := by
    rcases ht with rfl | ⟨s, hturn, hstep⟩
    · exact ⟨_, _, _, _, _, _, rfl⟩
    · rw [step_eq_turnWork, hturn] at hstep
      cases hstep
      exact ⟨_, _, _, _, _, _, rfl⟩
  obtain ⟨hbyte, hbit⟩ := byteIndex_and_bitIndex_of_pos_zero (s := resetWith cfg sched v m n e) rfl
  exact ⟨rfl, rfl, rfl, rfl, rfl, rfl, rfl, rfl, rfl, rfl, rfl, rfl, rfl, rfl, rfl, rfl, rfl, hbyte, hbit, rfl, rfl,
    rfl, rfl, rfl, rfl, rfl, rfl, rfl, rfl, rfl, rfl, rfl, rfl, rfl, fun _ => rfl, fun _ => rfl,
    engineWork_idle _ nofun⟩

end Sys2Proof.Machine
